-- ==== Sys2Proof/Word.lean ====
section
/-! DEFINITION. The byte of a frame, and a table of a fixed number of rows (the K24's tables of booths,
desks, programs, banks, tariff plans and slots). -/

namespace Sys2Proof

/-- One byte of a frame or record (spec/10, R178 to R180). -/
abbrev Byte := BitVec 8

/-- A table with exactly `n` rows of type `α`. Its rows are plain data and its size is part of the data,
so that reading row `i : Fin n` needs no check. -/
structure Table (α : Type) (n : Nat) where
  rows : List α
  size : rows.length = n
deriving DecidableEq, Repr

variable {α β : Type} {n : Nat}

/-- Row `i`. -/
def Table.get (t : Table α n) (i : Fin n) : α := t.rows.get (i.cast t.size.symm)

/-- The table with row `i` replaced. -/
def Table.set (t : Table α n) (i : Fin n) (a : α) : Table α n :=
  ⟨t.rows.set i.val a, by rw [List.length_set]; exact t.size⟩

/-- The table whose row `i` is `f i`. -/
def Table.ofFn (f : Fin n → α) : Table α n := ⟨List.ofFn f, List.length_ofFn⟩

/-- The table with every row equal to `a`. -/
def Table.replicate (n : Nat) (a : α) : Table α n := ⟨List.replicate n a, List.length_replicate⟩

/-- The table with row `i` changed by `f`. -/
def Table.modify (t : Table α n) (i : Fin n) (f : α → α) : Table α n := t.set i (f (t.get i))

/-- Every row changed by `f`. -/
def Table.map (f : α → β) (t : Table α n) : Table β n :=
  ⟨t.rows.map f, by rw [List.length_map]; exact t.size⟩

/-- Every row changed by `f`, which is also given the row's place. -/
def Table.mapIdx (f : Fin n → α → β) (t : Table α n) : Table β n := Table.ofFn fun i => f i (t.get i)

end Sys2Proof
end

