-- ==== Sys2Proof/Config.lean ====
section
/-! DEFINITION. What the silicon fixes and the manual leaves to it. -/

namespace Sys2Proof

/-- The silicon revision less one (spec/10, R172: "a number from 1 to 255"). The manual states no value:
an uninterpreted constant (log entry 11). -/
opaque Config.siliconRevision : Fin 255

/-- How far the n-th power-on start-up that is cut short had come: whether it had carried out the outcome of its check,
step 2 of R186 (spec/11, R189: "at whatever step it has reached"). The manual lets it be cut at any step: an uninterpreted
constant (log entry 30). -/
opaque Config.cutPastOutcome : Nat → Bool

end Sys2Proof
end

