-- ==== Sys2Proof/Syntax.lean ====
section
/-! DEFINITION. The events the K24 takes, one constructor for each row of spec/opcode_table.json. -/

namespace Sys2Proof

/-- The three ports (spec/10, R165). -/
inductive Port
  | booth
  | hire
  | operator
deriving DecidableEq, Repr

/-- One event. A command of R169's table carries the port it arrives on and its parameter bytes
(R170, R178); the other events carry what the row's rule gives them. -/
inductive Instr
  /-- R186: main power comes up. -/
  | powerOn
  /-- R189, R155: main power is lost. -/
  | mainPowerLoss
  /-- R186: the start-up check of a power-on completes, and start-up steps 2 to 6 follow. -/
  | startupCheckComplete
  /-- R188: RESET_N is asserted. -/
  | externalReset
  /-- R188: RESET_N is released. -/
  | resetRelease
  /-- R154: a pulse of the 1 Hz reference arrives. -/
  | tick
  /-- R158: the tick watch reaches 3000 ms. -/
  | tickWatchExpiry
  /-- R70: the health lines H2 H1 H0 change to `lines`, read as 4 × H2 + 2 × H1 + H0. -/
  | healthLineChange (lines : Fin 8)
  /-- R70: the debounce candidate has been held for 500 ms. -/
  | debounceExpiry
  /-- R30: the timebase reaches the deadline of the handover request of booth `booth` + 1. -/
  | handoverExpiry (booth : Fin 24)
  /-- R110: the timebase reaches the stocktake deadline. -/
  | stocktakeExpiry
  /-- R87: the Distribution Link partner asserts READY. -/
  | readyAssert
  /-- R88: the partner deasserts READY. -/
  | readyDeassert
  /-- R82: the link takes a send opportunity. -/
  | sendOpportunity
  /-- R82: the partner takes the last byte of the record in transmission. -/
  | transmissionComplete
  /-- R88: the stall watch reaches 2000 ms. -/
  | stallWatchExpiry
  /-- R167: transaction byte 1 on port `p`, followed by the bytes `frame`. -/
  | requestTransaction (p : Port) (frame : List Byte)
  /-- R168: transaction byte 2 on port `p`. -/
  | fetchAnswer (p : Port)
  /-- R166: transaction byte 3 on port `p`. -/
  | statusOnly (p : Port)
  /-- R166: a transaction byte of any other value on port `p`. -/
  | undefinedTransactionByte (p : Port) (byte : Byte)
  /-- R169: a request on port `p` whose code is not in the command table. -/
  | unknownCommand (p : Port) (code : Byte) (params : List Byte)
  /-- R171: READ STATUS. -/
  | readStatus (p : Port) (params : List Byte)
  /-- R175: READ NOTICE. -/
  | readNotice (p : Port) (params : List Byte)
  /-- R176: SET NOTICE MASK. -/
  | setNoticeMask (p : Port) (params : List Byte)
  /-- R172: READ CAPABILITY. -/
  | readCapability (p : Port) (params : List Byte)
  /-- R9: LOGIN (desk, ID). -/
  | login (p : Port) (params : List Byte)
  /-- R10: LOGOUT (desk). -/
  | logout (p : Port) (params : List Byte)
  /-- R11: MIC ON (desk, output). -/
  | micOn (p : Port) (params : List Byte)
  /-- R18: MIC OFF (desk). -/
  | micOff (p : Port) (params : List Byte)
  /-- R32: CANCEL HANDOVER (booth). -/
  | cancelHandover (p : Port) (params : List Byte)
  /-- R42: SELECT SOURCE (desk, source). -/
  | selectSource (p : Port) (params : List Byte)
  /-- R8: READ DESK (booth, position). -/
  | readDesk (p : Port) (params : List Byte)
  /-- R8: READ BOOTH (booth). -/
  | readBooth (p : Port) (params : List Byte)
  /-- R58: READ PROGRAM (program). -/
  | readProgram (p : Port) (params : List Byte)
  /-- R115: OPEN HIRE (badge, plan, deposit, preset, receivers). -/
  | openHire (p : Port) (params : List Byte)
  /-- R117: ADD RECEIVER (hire, receiver). -/
  | addReceiver (p : Port) (params : List Byte)
  /-- R120: RETURN RECEIVER (receiver). -/
  | returnReceiver (p : Port) (params : List Byte)
  /-- R122: WRITE OFF (hire, receiver). -/
  | writeOff (p : Port) (params : List Byte)
  /-- R123: CHANGE PRESET (hire, preset). -/
  | changePreset (p : Port) (params : List Byte)
  /-- R113: READ HIRE (selector, value, part). -/
  | readHire (p : Port) (params : List Byte)
  /-- R95: READ RECEIVER (selector, value). -/
  | readReceiver (p : Port) (params : List Byte)
  /-- R101: RACK SEATED (receiver, slot, battery). -/
  | rackSeated (p : Port) (params : List Byte)
  /-- R103: RACK BATTERY (receiver, battery). -/
  | rackBattery (p : Port) (params : List Byte)
  /-- R104: RACK REMOVED (slot). -/
  | rackRemoved (p : Port) (params : List Byte)
  /-- R107: STOCKTAKE START. -/
  | stocktakeStart (p : Port) (params : List Byte)
  /-- R109: STOCKTAKE END. -/
  | stocktakeEnd (p : Port) (params : List Byte)
  /-- R146: TAKE SETTLEMENT. -/
  | takeSettlement (p : Port) (params : List Byte)
  /-- R125: FIND BADGE (badge). -/
  | findBadge (p : Port) (params : List Byte)
  /-- R152: OPEN SESSION. -/
  | openSession (p : Port) (params : List Byte)
  /-- R152: RECESS. -/
  | recess (p : Port) (params : List Byte)
  /-- R152: RESUME. -/
  | resume (p : Port) (params : List Byte)
  /-- R152: END SESSION. -/
  | endSession (p : Port) (params : List Byte)
  /-- R3: SET BOOTH (booth, output A, output B, mode, window, policy, turn limit). -/
  | setBooth (p : Port) (params : List Byte)
  /-- R59: SET PROGRAM (program, configured, label, priority, quality, engagement mode). -/
  | setProgram (p : Port) (params : List Byte)
  /-- R64: PLAN HOLD. -/
  | planHold (p : Port) (params : List Byte)
  /-- R66: PLAN RELEASE. -/
  | planRelease (p : Port) (params : List Byte)
  /-- R67: PLAN ABANDON. -/
  | planAbandon (p : Port) (params : List Byte)
  /-- R69: SET BANK BUDGET (bank, budget). -/
  | setBankBudget (p : Port) (params : List Byte)
  /-- R135: SET TARIFF (plan, grace, unit length, unit charge, daily cap, lost charge, hire limit). -/
  | setTariff (p : Port) (params : List Byte)
  /-- R100: SET THRESHOLD (percent). -/
  | setThreshold (p : Port) (params : List Byte)
  /-- R156: SET CLOCK (day, second). -/
  | setClock (p : Port) (params : List Byte)
  /-- R161: DAY CLOSE. -/
  | dayClose (p : Port) (params : List Byte)
  /-- R96: ENROL RECEIVER (receiver). -/
  | enrolReceiver (p : Port) (params : List Byte)
  /-- R97: WITHDRAW RECEIVER (receiver). -/
  | withdrawReceiver (p : Port) (params : List Byte)
  /-- R98: REINSTATE RECEIVER (receiver). -/
  | reinstateReceiver (p : Port) (params : List Byte)
  /-- R99: DELETE RECEIVER (receiver). -/
  | deleteReceiver (p : Port) (params : List Byte)
  /-- R183: READ FAULTS. -/
  | readFaults (p : Port) (params : List Byte)
  /-- R184: CLEAR FAULTS (flag names). -/
  | clearFaults (p : Port) (params : List Byte)
  /-- R8: READ INTERPRETER (selector, value). -/
  | readInterpreter (p : Port) (params : List Byte)
  /-- R163: READ DAY SUMMARY. -/
  | readDaySummary (p : Port) (params : List Byte)
  /-- R89: RESYNC DISTRIBUTION. -/
  | resyncDistribution (p : Port) (params : List Byte)
  /-- R177: PORT RESET (port). -/
  | portReset (p : Port) (params : List Byte)
  /-- R68: READ PLAN (selector). -/
  | readPlan (p : Port) (params : List Byte)
  /-- R136: READ TARIFF (plan). -/
  | readTariff (p : Port) (params : List Byte)
  /-- R185: VBAK fails to hold the retained domain while main power is off. -/
  | vbakFailure
deriving DecidableEq, Repr

end Sys2Proof
end

