-- ==== Sys2Proof/Decode.lean ====
section
/-! DEFINITION. The command table of R169 (codes and ports), a request read as the event it asks for and
written back as its code and parameters, and `decodeTableWord`. No row of spec/opcode_table.json gives bits,
so `decodeTableWord` reads none. -/

namespace Sys2Proof

/-- On which ports R169's table accepts a command. -/
inductive Access
  | every
  | only (p : Port)
deriving DecidableEq, Repr

/-- R169's table: the ports on which a command code is accepted; none for a code that is not in the table. -/
def commandAccess (code : Byte) : Option Access :=
  match code.toNat with
  | 0x01 => some (.every)
  | 0x02 => some (.every)
  | 0x03 => some (.every)
  | 0x04 => some (.every)
  | 0x10 => some (.only .booth)
  | 0x11 => some (.only .booth)
  | 0x12 => some (.only .booth)
  | 0x13 => some (.only .booth)
  | 0x14 => some (.only .booth)
  | 0x15 => some (.only .booth)
  | 0x16 => some (.every)
  | 0x17 => some (.every)
  | 0x18 => some (.every)
  | 0x30 => some (.only .hire)
  | 0x31 => some (.only .hire)
  | 0x32 => some (.only .hire)
  | 0x33 => some (.only .hire)
  | 0x34 => some (.only .hire)
  | 0x35 => some (.every)
  | 0x36 => some (.every)
  | 0x37 => some (.only .hire)
  | 0x38 => some (.only .hire)
  | 0x39 => some (.only .hire)
  | 0x3a => some (.only .hire)
  | 0x3b => some (.only .hire)
  | 0x3c => some (.only .hire)
  | 0x3d => some (.every)
  | 0x50 => some (.only .operator)
  | 0x51 => some (.only .operator)
  | 0x52 => some (.only .operator)
  | 0x53 => some (.only .operator)
  | 0x54 => some (.only .operator)
  | 0x55 => some (.only .operator)
  | 0x56 => some (.only .operator)
  | 0x57 => some (.only .operator)
  | 0x58 => some (.only .operator)
  | 0x59 => some (.only .operator)
  | 0x5a => some (.only .operator)
  | 0x5b => some (.only .operator)
  | 0x5c => some (.only .operator)
  | 0x5d => some (.only .operator)
  | 0x5e => some (.only .operator)
  | 0x5f => some (.only .operator)
  | 0x60 => some (.only .operator)
  | 0x61 => some (.only .operator)
  | 0x62 => some (.every)
  | 0x63 => some (.only .operator)
  | 0x64 => some (.every)
  | 0x65 => some (.every)
  | 0x66 => some (.only .operator)
  | 0x67 => some (.only .operator)
  | 0x68 => some (.every)
  | 0x69 => some (.every)
  | _ => none

/-- The event that handles a request with this code and these parameters on port `p` (R169). A code that is
not in the table gives UNKNOWN COMMAND. -/
def commandOf (p : Port) (code : Byte) (params : List Byte) : Instr :=
  match code.toNat with
  | 0x01 => .readStatus p params
  | 0x02 => .readNotice p params
  | 0x03 => .setNoticeMask p params
  | 0x04 => .readCapability p params
  | 0x10 => .login p params
  | 0x11 => .logout p params
  | 0x12 => .micOn p params
  | 0x13 => .micOff p params
  | 0x14 => .cancelHandover p params
  | 0x15 => .selectSource p params
  | 0x16 => .readDesk p params
  | 0x17 => .readBooth p params
  | 0x18 => .readProgram p params
  | 0x30 => .openHire p params
  | 0x31 => .addReceiver p params
  | 0x32 => .returnReceiver p params
  | 0x33 => .writeOff p params
  | 0x34 => .changePreset p params
  | 0x35 => .readHire p params
  | 0x36 => .readReceiver p params
  | 0x37 => .rackSeated p params
  | 0x38 => .rackBattery p params
  | 0x39 => .rackRemoved p params
  | 0x3a => .stocktakeStart p params
  | 0x3b => .stocktakeEnd p params
  | 0x3c => .takeSettlement p params
  | 0x3d => .findBadge p params
  | 0x50 => .openSession p params
  | 0x51 => .recess p params
  | 0x52 => .resume p params
  | 0x53 => .endSession p params
  | 0x54 => .setBooth p params
  | 0x55 => .setProgram p params
  | 0x56 => .planHold p params
  | 0x57 => .planRelease p params
  | 0x58 => .planAbandon p params
  | 0x59 => .setBankBudget p params
  | 0x5a => .setTariff p params
  | 0x5b => .setThreshold p params
  | 0x5c => .setClock p params
  | 0x5d => .dayClose p params
  | 0x5e => .enrolReceiver p params
  | 0x5f => .withdrawReceiver p params
  | 0x60 => .reinstateReceiver p params
  | 0x61 => .deleteReceiver p params
  | 0x62 => .readFaults p params
  | 0x63 => .clearFaults p params
  | 0x64 => .readInterpreter p params
  | 0x65 => .readDaySummary p params
  | 0x66 => .resyncDistribution p params
  | 0x67 => .portReset p params
  | 0x68 => .readPlan p params
  | 0x69 => .readTariff p params
  | _ => .unknownCommand p code params

/-- The request that an event handles: its port, its command code and its parameter bytes (R169, R178). The
events that are no request give none. -/
def requestOf (i : Instr) : Option (Port × Byte × List Byte) :=
  match i with
  | .powerOn => none
  | .mainPowerLoss => none
  | .startupCheckComplete => none
  | .externalReset => none
  | .resetRelease => none
  | .tick => none
  | .tickWatchExpiry => none
  | .healthLineChange _ => none
  | .debounceExpiry => none
  | .handoverExpiry _ => none
  | .stocktakeExpiry => none
  | .readyAssert => none
  | .readyDeassert => none
  | .sendOpportunity => none
  | .transmissionComplete => none
  | .stallWatchExpiry => none
  | .requestTransaction _ _ => none
  | .fetchAnswer _ => none
  | .statusOnly _ => none
  | .undefinedTransactionByte _ _ => none
  | .unknownCommand p code params => some (p, code, params)
  | .readStatus p params => some (p, 0x01#8, params)
  | .readNotice p params => some (p, 0x02#8, params)
  | .setNoticeMask p params => some (p, 0x03#8, params)
  | .readCapability p params => some (p, 0x04#8, params)
  | .login p params => some (p, 0x10#8, params)
  | .logout p params => some (p, 0x11#8, params)
  | .micOn p params => some (p, 0x12#8, params)
  | .micOff p params => some (p, 0x13#8, params)
  | .cancelHandover p params => some (p, 0x14#8, params)
  | .selectSource p params => some (p, 0x15#8, params)
  | .readDesk p params => some (p, 0x16#8, params)
  | .readBooth p params => some (p, 0x17#8, params)
  | .readProgram p params => some (p, 0x18#8, params)
  | .openHire p params => some (p, 0x30#8, params)
  | .addReceiver p params => some (p, 0x31#8, params)
  | .returnReceiver p params => some (p, 0x32#8, params)
  | .writeOff p params => some (p, 0x33#8, params)
  | .changePreset p params => some (p, 0x34#8, params)
  | .readHire p params => some (p, 0x35#8, params)
  | .readReceiver p params => some (p, 0x36#8, params)
  | .rackSeated p params => some (p, 0x37#8, params)
  | .rackBattery p params => some (p, 0x38#8, params)
  | .rackRemoved p params => some (p, 0x39#8, params)
  | .stocktakeStart p params => some (p, 0x3a#8, params)
  | .stocktakeEnd p params => some (p, 0x3b#8, params)
  | .takeSettlement p params => some (p, 0x3c#8, params)
  | .findBadge p params => some (p, 0x3d#8, params)
  | .openSession p params => some (p, 0x50#8, params)
  | .recess p params => some (p, 0x51#8, params)
  | .resume p params => some (p, 0x52#8, params)
  | .endSession p params => some (p, 0x53#8, params)
  | .setBooth p params => some (p, 0x54#8, params)
  | .setProgram p params => some (p, 0x55#8, params)
  | .planHold p params => some (p, 0x56#8, params)
  | .planRelease p params => some (p, 0x57#8, params)
  | .planAbandon p params => some (p, 0x58#8, params)
  | .setBankBudget p params => some (p, 0x59#8, params)
  | .setTariff p params => some (p, 0x5a#8, params)
  | .setThreshold p params => some (p, 0x5b#8, params)
  | .setClock p params => some (p, 0x5c#8, params)
  | .dayClose p params => some (p, 0x5d#8, params)
  | .enrolReceiver p params => some (p, 0x5e#8, params)
  | .withdrawReceiver p params => some (p, 0x5f#8, params)
  | .reinstateReceiver p params => some (p, 0x60#8, params)
  | .deleteReceiver p params => some (p, 0x61#8, params)
  | .readFaults p params => some (p, 0x62#8, params)
  | .clearFaults p params => some (p, 0x63#8, params)
  | .readInterpreter p params => some (p, 0x64#8, params)
  | .readDaySummary p params => some (p, 0x65#8, params)
  | .resyncDistribution p params => some (p, 0x66#8, params)
  | .portReset p params => some (p, 0x67#8, params)
  | .readPlan p params => some (p, 0x68#8, params)
  | .readTariff p params => some (p, 0x69#8, params)
  | .vbakFailure => none

/-- The command that a word spells by the table's bits. No row gives bits (spec/98_reader.md: 75 rows, none
with fields), so no word spells one. -/
def decodeTableWord (_nbits _w : Nat) : Option Instr := none

end Sys2Proof
end

