-- ==== Sys2Proof/WellFormed.lean ====
section
/-! DEFINITION. When an event is one that can occur as it is written. -/

namespace Sys2Proof

/-- R178: a request frame declares at most 250 parameter bytes. -/
def Instr.paramsFit (params : List Byte) : Bool := params.length ≤ 250

/-- An event is well formed when it can occur as written: a request's parameters fit a request frame (R178), an
undefined transaction byte is none of the three defined ones (R166), and an unknown command's code is not in
the command table (R169). -/
def Instr.wellFormed (i : Instr) : Bool :=
  match i with
  | .powerOn => true
  | .mainPowerLoss => true
  | .startupCheckComplete => true
  | .externalReset => true
  | .resetRelease => true
  | .tick => true
  | .tickWatchExpiry => true
  | .healthLineChange _ => true
  | .debounceExpiry => true
  | .handoverExpiry _ => true
  | .stocktakeExpiry => true
  | .readyAssert => true
  | .readyDeassert => true
  | .sendOpportunity => true
  | .transmissionComplete => true
  | .stallWatchExpiry => true
  | .requestTransaction _ _ => true
  | .fetchAnswer _ => true
  | .statusOnly _ => true
  | .undefinedTransactionByte _ b => b.toNat == 0 || 3 < b.toNat
  | .unknownCommand _ code params => (commandAccess code).isNone && Instr.paramsFit params
  | .readStatus _ params => Instr.paramsFit params
  | .readNotice _ params => Instr.paramsFit params
  | .setNoticeMask _ params => Instr.paramsFit params
  | .readCapability _ params => Instr.paramsFit params
  | .login _ params => Instr.paramsFit params
  | .logout _ params => Instr.paramsFit params
  | .micOn _ params => Instr.paramsFit params
  | .micOff _ params => Instr.paramsFit params
  | .cancelHandover _ params => Instr.paramsFit params
  | .selectSource _ params => Instr.paramsFit params
  | .readDesk _ params => Instr.paramsFit params
  | .readBooth _ params => Instr.paramsFit params
  | .readProgram _ params => Instr.paramsFit params
  | .openHire _ params => Instr.paramsFit params
  | .addReceiver _ params => Instr.paramsFit params
  | .returnReceiver _ params => Instr.paramsFit params
  | .writeOff _ params => Instr.paramsFit params
  | .changePreset _ params => Instr.paramsFit params
  | .readHire _ params => Instr.paramsFit params
  | .readReceiver _ params => Instr.paramsFit params
  | .rackSeated _ params => Instr.paramsFit params
  | .rackBattery _ params => Instr.paramsFit params
  | .rackRemoved _ params => Instr.paramsFit params
  | .stocktakeStart _ params => Instr.paramsFit params
  | .stocktakeEnd _ params => Instr.paramsFit params
  | .takeSettlement _ params => Instr.paramsFit params
  | .findBadge _ params => Instr.paramsFit params
  | .openSession _ params => Instr.paramsFit params
  | .recess _ params => Instr.paramsFit params
  | .resume _ params => Instr.paramsFit params
  | .endSession _ params => Instr.paramsFit params
  | .setBooth _ params => Instr.paramsFit params
  | .setProgram _ params => Instr.paramsFit params
  | .planHold _ params => Instr.paramsFit params
  | .planRelease _ params => Instr.paramsFit params
  | .planAbandon _ params => Instr.paramsFit params
  | .setBankBudget _ params => Instr.paramsFit params
  | .setTariff _ params => Instr.paramsFit params
  | .setThreshold _ params => Instr.paramsFit params
  | .setClock _ params => Instr.paramsFit params
  | .dayClose _ params => Instr.paramsFit params
  | .enrolReceiver _ params => Instr.paramsFit params
  | .withdrawReceiver _ params => Instr.paramsFit params
  | .reinstateReceiver _ params => Instr.paramsFit params
  | .deleteReceiver _ params => Instr.paramsFit params
  | .readFaults _ params => Instr.paramsFit params
  | .clearFaults _ params => Instr.paramsFit params
  | .readInterpreter _ params => Instr.paramsFit params
  | .readDaySummary _ params => Instr.paramsFit params
  | .resyncDistribution _ params => Instr.paramsFit params
  | .portReset _ params => Instr.paramsFit params
  | .readPlan _ params => Instr.paramsFit params
  | .readTariff _ params => Instr.paramsFit params
  | .vbakFailure => true

end Sys2Proof
end

