-- ==== Sys2Proof/Machine/State.lean ====
section
/-! DEFINITION. Everything the K24 holds, as plain data, block by block (spec/00, "Blocks and how they work
together"), and the machine right after reset. A numbered thing is held by its place: booth n is `Fin 24` at
n − 1, position n is `Fin 3` at n − 1, rack slot n is `Fin 512` at n − 1; programs, plans and banks are
numbered from 0 as in the manual. -/

namespace Sys2Proof.Machine

/-! ### Names of the manual -/

/-- A program number, 0 to 31 (spec/00). -/
abbrev Prog := Fin 32

/-- What a desk listens to: 0 is floor, 1 to 31 name a program (R42). -/
abbrev Source := Fin 32

/-- A booth's output A or output B (R2). -/
inductive Output
  | a
  | b
deriving DecidableEq, Repr

/-- A desk, by booth and position (01, introduction). -/
structure DeskId where
  booth : Fin 24
  pos : Fin 3
deriving DecidableEq, Repr

/-- The desk's place among the 72, in order of booth and then position (R81). -/
def DeskId.idx (d : DeskId) : Fin 72 := ⟨3 * d.booth.val + d.pos.val, by omega⟩

/-- The desk at a place among the 72. -/
def deskAt (i : Fin 72) : DeskId := ⟨⟨i.val / 3, by omega⟩, ⟨i.val % 3, by omega⟩⟩

/-- A point in hall time (00, Conventions; R154). -/
structure HallTime where
  day : Nat
  second : Nat
deriving DecidableEq, Repr

/-- The absolute value of a point in hall time: day × 86400 + second (R154). -/
def HallTime.abs (t : HallTime) : Nat := t.day * 86400 + t.second

/-- The session state (R151). -/
inductive Session
  | setup
  | live
  | recess
deriving DecidableEq, Repr

/-! ### Booth Section (01, 02) -/

/-- How a booth's desks hand the air to one another (R2). -/
inductive HandoverMode
  | immediate
  | negotiated
deriving DecidableEq, Repr

/-- What the expiry of a handover request does (R2, R30, R31). -/
inductive ExpiryPolicy
  | force
  | lapse
deriving DecidableEq, Repr

/-- A booth's two output fields (R2); the part of its configuration that a plan hold shadows (R64). -/
structure Outputs where
  a : Option Prog
  b : Option Prog
deriving DecidableEq, Repr

/-- A booth's configuration record (R2). The window is in seconds and the turn limit in minutes. -/
structure BoothConfig where
  outputs : Outputs
  mode : HandoverMode
  window : Nat
  policy : ExpiryPolicy
  turnLimit : Nat
deriving DecidableEq, Repr

/-- The defaults of R2. -/
def BoothConfig.default : BoothConfig := ⟨⟨none, none⟩, .immediate, 20, .force, 30⟩

/-- A desk's state, with the interpreter ID and live output it carries (R5). -/
inductive DeskState
  | vacant
  | ready (id : Nat)
  | live (id : Nat) (out : Output)
deriving DecidableEq, Repr

/-- Why a desk's relay is broken (R40). -/
inductive RelayReason
  | depth
  | loop
deriving DecidableEq, Repr

/-- A desk's relay status (R40). -/
inductive Relay
  | ok
  | broken (reason : RelayReason)
deriving DecidableEq, Repr

/-- A desk record (R5); the feed and the relay status are the Derivation Unit's (R40). -/
structure Desk where
  state : DeskState
  selected : Source
  turnSeconds : Nat
  turnDue : Bool
  feed : Source
  relay : Relay
deriving DecidableEq, Repr

/-- A desk after power-on and after external reset (R5, R40). -/
def Desk.reset : Desk := ⟨.vacant, 0, 0, false, 0, .ok⟩

/-- A booth's handover request (R25). The deadline is a reading of the internal timebase. -/
structure HandoverRequest where
  requester : Fin 3
  output : Output
  deadline : Nat
  liveDesk : Fin 3
deriving DecidableEq, Repr

/-- An entry of the interpreter table (R7). -/
structure Interpreter where
  id : Nat
  desk : Option DeskId
  onAir : Nat
  turns : Nat
  prevOnAir : Nat
  prevTurns : Nat
deriving DecidableEq, Repr

/-- The Booth Section's state (R2, R5, R7, R25). -/
structure BoothSection where
  configs : Table BoothConfig 24
  desks : Table Desk 72
  requests : Table (Option HandoverRequest) 24
  interpreters : List Interpreter
deriving DecidableEq, Repr

/-! ### Programs and the Carrier Planner (03, 04) -/

/-- Why a program last lost its live desk (R6). -/
inductive OffAirCause
  | none
  | released
  | handedOver
  | forcedHandover
  | overridden
  | switched
  | session
deriving DecidableEq, Repr

/-- Why a handover request was dropped (R33). -/
inductive DropCause
  | expired
  | cancelled
  | logout
  | overridden
  | session
deriving DecidableEq, Repr

/-- A program's level (R41). -/
inductive Level
  | floorFallback
  | direct
  | relay
  | secondRelay
deriving DecidableEq, Repr

/-- A program's priority (R56). -/
inductive Priority
  | critical
  | high
  | low
deriving DecidableEq, Repr

/-- A quality of carriage (R56). -/
inductive Quality
  | standard
  | high
deriving DecidableEq, Repr

/-- A program's engagement mode (R12, R56). -/
inductive Engagement
  | interlock
  | override
deriving DecidableEq, Repr

/-- A program's radiation state (R56). -/
inductive Radiation
  | unconfigured
  | carried
  | demoted
  | shed
deriving DecidableEq, Repr

/-- A program's label: three characters (R56, R170). -/
structure Label where
  c1 : Byte
  c2 : Byte
  c3 : Byte
deriving DecidableEq, Repr

/-- The default label "---" (R56). PRESUMED: the characters are sent in ASCII, log entry 19. -/
def Label.default : Label := ⟨0x2D#8, 0x2D#8, 0x2D#8⟩

/-- The five configuration fields of a program (R59); the part of its record that a plan hold shadows (R64). -/
structure ProgConfig where
  configured : Bool
  label : Label
  priority : Priority
  quality : Quality
  engagement : Engagement
deriving DecidableEq, Repr

/-- A program's configuration after a cold start (R56); Floor's is fixed (R57). -/
def ProgConfig.default (p : Prog) : ProgConfig :=
  if p = 0 then ⟨true, .default, .critical, .standard, .interlock⟩
  else ⟨false, .default, .low, .standard, .interlock⟩

/-- A program record, every field of R56. -/
structure Program where
  config : ProgConfig
  outage : BitVec 32
  outageBase : BitVec 32
  radiation : Radiation
  demand : Nat
  shedCount : BitVec 8
  liveDesk : Option DeskId
  lastCause : OffAirCause
  derivedSource : Option DeskId
  level : Level
deriving DecidableEq, Repr

/-- What a program's radiation state reads before the start-up pass (R76). -/
def ProgConfig.startRadiation (c : ProgConfig) : Radiation :=
  if c.configured then .carried else .unconfigured

/-- A program record with its volatile fields at their reset values and its retained fields kept (R56). -/
def Program.volatileReset (r : Program) : Program :=
  { r with radiation := r.config.startRadiation, demand := 0, shedCount := 0, liveDesk := none,
           lastCause := .none, derivedSource := none, level := .floorFallback }

/-- A program record after a cold start (R56). -/
def Program.default (p : Prog) : Program :=
  ⟨ProgConfig.default p, 0, 0, (ProgConfig.default p).startRadiation, 0, 0, none, .none, none,
    .floorFallback⟩

/-- The shadow of a plan hold (R64). -/
structure Shadow where
  programs : Table ProgConfig 32
  outputs : Table Outputs 24
deriving DecidableEq, Repr

/-- What the previous allocation pass left and used, which the next one compares against (R77). -/
structure PassMemo where
  bank : Fin 8
  budget : Nat
  carried : List (Prog × Quality)
  states : Table Radiation 32
deriving DecidableEq, Repr

/-- The Carrier Planner's state (R64, R68, R69, R70, R77). The candidate holds a bank and the time it was
taken. -/
structure Planner where
  lines : Fin 8
  bank : Fin 8
  candidate : Option (Fin 8 × Nat)
  budgets : Table Nat 8
  slotsInUse : Nat
  lastPass : PassMemo
  hold : Option Shadow
deriving DecidableEq, Repr

/-- The default slot budgets (R69). -/
def defaultBudgets : Table Nat 8 := .ofFn fun i => 4 * (i.val + 1)

/-! ### Distribution Link (05) -/

/-- A record of the Distribution Link, by its fields (R84 to R86). -/
inductive Record
  | plan (bank : Fin 8) (budget : Nat) (carried : List (Prog × Quality))
  | route (program : Prog) (source : Option DeskId) (level : Level) (radiation : Radiation)
  | feed (desk : DeskId) (feed : Source)
deriving DecidableEq, Repr

/-- The state of the link (R82); while it is sending, the record in transmission. -/
inductive LinkPhase
  | held
  | idle
  | sending (record : Record)
deriving DecidableEq, Repr

/-- The Distribution Link's state (R81, R82, R87, R88, R91). `ready` is the pin; `readyRead` is its level as the
link last read it (log entry 38 says when); `stallSince` is when the running stall watch started. `lastSent` is the model's own: the
bytes of the last record the partner has taken whole (log entry 13). -/
structure Link where
  planKey : Bool
  programKeys : Table Bool 32
  deskKeys : Table Bool 72
  phase : LinkPhase
  ready : Bool
  readyRead : Bool
  stallSince : Option Nat
  episode : Bool
  lastSent : List Byte
deriving DecidableEq, Repr

/-! ### Receiver Registry (06) -/

/-- A receiver's state (R93). -/
inductive ReceiverState
  | ready
  | charging
  | onHire
  | unracked
  | lost
  | withdrawn
deriving DecidableEq, Repr

/-- A receiver record (R92). -/
structure Receiver where
  number : Nat
  state : ReceiverState
  hire : Option Nat
  battery : Option Nat
  slot : Option (Fin 512)
  issues : Nat
  mark : Bool
deriving DecidableEq, Repr

/-- The stocktake's four fields (R107). -/
structure Stocktake where
  running : Bool
  deadline : Option Nat
  markedAtStart : Nat
  marksLeft : Nat
deriving DecidableEq, Repr

/-- The stocktake after power-on and external reset (R107). -/
def Stocktake.idle : Stocktake := ⟨false, none, 0, 0⟩

/-- The Receiver Registry's state (R92, R94, R100, R107). -/
structure Registry where
  receivers : List Receiver
  slots : Table (Option Nat) 512
  threshold : Nat
  stocktake : Stocktake
deriving DecidableEq, Repr

/-! ### Hire Table and Settlement Unit (07, 08) -/

/-- A hire line's state (R112). -/
inductive LineState
  | out
  | returned
  | lost
deriving DecidableEq, Repr

/-- A hire line (R112). -/
structure Line where
  receiver : Nat
  state : LineState
  base : Option (BitVec 32)
  carried : BitVec 32
  returnTime : Option HallTime
  outageAtReturn : Option (BitVec 32)
deriving DecidableEq, Repr

/-- The frozen figures of one line (R142, R143). -/
structure LineAccount where
  receiver : Nat
  outcome : LineState
  minutes : Nat
  gross : Nat
  credited : Nat
  charge : Nat
deriving DecidableEq, Repr

/-- The frozen figures of a hire (R142). -/
structure Account where
  lines : List LineAccount
  total : Nat
  balance : Int
deriving DecidableEq, Repr

/-- A hire's state (R111). -/
inductive HireState
  | opened
  | settling
deriving DecidableEq, Repr

/-- A hire record (R111). -/
structure Hire where
  number : Nat
  state : HireState
  badge : Nat
  plan : Fin 8
  deposit : Nat
  preset : Option Prog
  openedAt : HallTime
  overdue : Bool
  suspect : Bool
  closedAt : Option HallTime
  closingPos : Option Nat
  lines : List Line
  account : Option Account
deriving DecidableEq, Repr

/-- The Hire Table's state (R113, R114). -/
structure HireTable where
  records : List Hire
  counter : Nat
deriving DecidableEq, Repr

/-- A tariff plan (R134). Grace and unit length are in minutes, the hire limit in hours. -/
structure Tariff where
  grace : Nat
  unitLength : Nat
  unitCharge : Nat
  dailyCap : Nat
  lostCharge : Nat
  hireLimit : Nat
deriving DecidableEq, Repr

/-- The defaults of R134. -/
def Tariff.default : Tariff := ⟨10, 60, 0, 0, 0, 24⟩

/-- A settlement record (R143). -/
structure Settled where
  hire : Nat
  badge : Nat
  plan : Fin 8
  deposit : Nat
  openedAt : HallTime
  closedAt : HallTime
  overdue : Bool
  suspect : Bool
  account : Account
deriving DecidableEq, Repr

/-- The Settlement Unit's state (R134, R144). -/
structure Settlement where
  tariffs : Table Tariff 8
  queue : List Settled
deriving DecidableEq, Repr

/-! ### Session and Clock (09) -/

/-- The last restart cause (R159). -/
inductive RestartCause
  | powerOn
  | external
  | coldStart
deriving DecidableEq, Repr

/-- The eight day counters (R160). -/
structure DayCounters where
  hiresOpened : Nat
  hiresSettled : Nat
  issued : Nat
  returned : Nat
  writtenOff : Nat
  charges : Nat
  refunds : Nat
  due : Nat
deriving DecidableEq, Repr

/-- The day counters at 0 (R160). -/
def DayCounters.zero : DayCounters := ⟨0, 0, 0, 0, 0, 0, 0, 0⟩

/-- A day summary (R161). -/
structure DaySummary where
  day : Nat
  closing : HallTime
  valid : Bool
  counters : DayCounters
  outages : Table (BitVec 32) 32
  entries : Nat
deriving DecidableEq, Repr

/-- Session and Clock's state (R151, R154, R158 to R161). The tick watch is LOST when `tickLost` is set, and
otherwise TICKING since the time `tickSince`. -/
structure SessionClock where
  state : Session
  clock : HallTime
  valid : Bool
  tickSince : Nat
  tickLost : Bool
  restartCount : BitVec 16
  restartCause : RestartCause
  dayNumber : Nat
  counters : DayCounters
  summary : Option DaySummary
deriving DecidableEq, Repr

/-! ### Ports (10) -/

/-- The result codes by name (R169). -/
inductive Result
  | ok
  | okClamped
  | pending
  | empty
  | recovered
  | malformed
  | wrongPort
  | unknownCommand
  | starting
  | notLive
  | noInterpreter
  | engaged
  | busy
  | inUse
  | tableFull
  | ownOutput
  | notConfigured
  | locked
  | held
  | notReady
  | badgeActive
  | unknown
  | noClock
  | linesFull
  | onHire
  | duplicate
  | notActive
deriving DecidableEq, Repr

/-- The notice kinds (R173). -/
inductive NoticeKind
  | handoverAsked
  | handoverDone
  | handoverLapsed
  | handoverFailed
  | cut
  | turnDue
  | relayFallback
  | relayRestored
  | programShed
  | programRestored
  | sessionChanged
  | hireOverdue
  | presetShed
  | receiverUnracked
  | stocktakeAbandoned
  | settlementWaiting
  | faultRaised
  | bankChanged
  | started
deriving DecidableEq, Repr

/-- All notice kinds in ascending code order (R173). -/
def allNoticeKinds : List NoticeKind :=
  [.handoverAsked, .handoverDone, .handoverLapsed, .handoverFailed, .cut, .turnDue, .relayFallback,
   .relayRestored, .programShed, .programRestored, .sessionChanged, .hireOverdue, .presetShed,
   .receiverUnracked, .stocktakeAbandoned, .settlementWaiting, .faultRaised, .bankChanged, .started]

/-- The ports a notice kind goes to, in the order Booth, Hire, Operator (R173). -/
def NoticeKind.ports (k : NoticeKind) : List Port :=
  match k with
  | .handoverAsked | .handoverDone | .handoverLapsed | .handoverFailed => [.booth]
  | .cut | .turnDue | .relayFallback | .relayRestored => [.booth]
  | .programShed | .programRestored => [.booth, .operator]
  | .sessionChanged => [.booth, .hire, .operator]
  | .hireOverdue | .presetShed | .receiverUnracked | .stocktakeAbandoned | .settlementWaiting => [.hire]
  | .faultRaised | .bankChanged | .started => [.operator]

/-- The notice kinds that go to a port, in ascending code order: its mask after a reset (R165, R173). -/
def kindsOf (p : Port) : List NoticeKind := allNoticeKinds.filter fun k => p ∈ k.ports

/-- A notice: its kind, the hall time it was queued at, and its four context numbers (R174). -/
structure Notice where
  kind : NoticeKind
  time : HallTime
  context : List Nat
deriving DecidableEq, Repr

/-- A request in progress: its command code and parameters (R167, R178), and its turn among the requests that wait: it
was taken after every request of a lower turn. The turn is the model's own field; it keeps the order in which requests
from different ports arrive (spec/10; log entry 45). -/
structure Request where
  code : Byte
  params : List Byte
  turn : Nat
deriving DecidableEq, Repr

/-- An answer: the command code echoed, the result and the answer's field bytes (R168, R178). -/
structure Answer where
  code : Byte
  result : Result
  fields : List Byte
deriving DecidableEq, Repr

/-- A Port Interface (R165). -/
structure PortState where
  request : Option Request
  answer : Option Answer
  queue : List Notice
  mask : List NoticeKind
  lost : Bool
deriving DecidableEq, Repr

/-- A port after power-on, external reset and PORT RESET (R165). -/
def PortState.reset (p : Port) : PortState := ⟨none, none, [], kindsOf p, false⟩

/-- What the K24 shifted out in the latest transaction of each port: the MODEL's own field, so that the status
bytes and answer frames of R166 and R168 can be seen (log entry 13). -/
structure Wire where
  booth : List Byte
  hire : List Byte
  operator : List Byte
deriving DecidableEq, Repr

/-- The three Port Interfaces, the Operator port's pending self-reset (R165), and the wire. -/
structure Ports where
  booth : PortState
  hire : PortState
  operator : PortState
  selfReset : Bool
  wire : Wire
deriving DecidableEq, Repr

/-! ### Fault Capture and Retention Control (11) -/

/-- The seven faults (R181). -/
inductive FaultKind
  | tickLost
  | budgetDeficit
  | noticeOverflow
  | settlementBacklog
  | dlStall
  | retentionLost
  | clockStepBack
deriving DecidableEq, Repr

/-- The details of a captured fault (R181). Code and class follow from the kind. -/
structure FaultRecord where
  kind : FaultKind
  context : Nat
  time : HallTime
deriving DecidableEq, Repr

/-- Fault Capture's state (R181), with the faults held during start-up, in the order they arose (R186). -/
structure FaultCapture where
  record : Option FaultRecord
  alertSeen : Bool
  severeSeen : Bool
  multipleSevere : Bool
  held : List (FaultKind × Nat)
deriving DecidableEq, Repr

/-- Fault Capture after power-on and external reset (R181). -/
def FaultCapture.reset : FaultCapture := ⟨none, false, false, false, []⟩

/-- Retention Control's state (R185): the supply marker, and for each of the ten groups whether its check word
agrees with its contents. The word's function is not given; its agreement is all that is read (log entry 8). -/
structure Retention where
  marker : Bool
  intact : Table Bool 10
deriving DecidableEq, Repr

/-- The start-up state (R171, R186, R188). It reads RUNNING in `checking`, the start-up of a power-on, and in
`external`, that of an external reset. -/
inductive Startup
  | checking
  | external
  | done
deriving DecidableEq, Repr

/-! ### The machine -/

/-- The last reading of the internal timebase: a count of milliseconds from 0 to 2^64 − 1 (R1). -/
def lastCount : Nat := 18446744073709551615

/-- The K24's whole state, with the commands that wait. `now` is the internal timebase, 0 to `lastCount` (R1).
`checkSince` is the count at which the start-up check that runs, or ran last, began (R186; log entry 44).
`startUpsCut` is the model's own: how many power-on start-ups have been cut short, to which the free value
`Config.cutPastOutcome` is applied (log entry 30). -/
structure State where
  now : Nat
  powered : Bool
  resetAsserted : Bool
  startup : Startup
  checkSince : Nat
  booth : BoothSection
  programs : Table Program 32
  planner : Planner
  link : Link
  registry : Registry
  hires : HireTable
  settlement : Settlement
  session : SessionClock
  ports : Ports
  faults : FaultCapture
  retention : Retention
  startUpsCut : Nat
  pending : List Instr
deriving DecidableEq, Repr

/-- What stops the machine: nothing. The K24 reports its own faults in its state (R181) and goes on, and the
manual describes no event that halts it, so there is no constructor. -/
inductive Fault
deriving DecidableEq, Repr

/-- What the model declines to run. -/
inductive Refusal
  /-- Raised by an arm of `exec` whose event has no meaning yet; safe. No arm raises it now. -/
  | notModelled (mnemonic : String)
deriving DecidableEq, Repr

/-- A handled request: the state its event leaves, the result and the answer's fields (R167). -/
structure Reply where
  state : State
  result : Result
  fields : List Byte
deriving DecidableEq, Repr

/-! ### Reset -/

/-- The Distribution Link at power-on and external reset, its READY pin apart (R90). DESIGN CHOICE: READY as last
read reads deasserted, log entry 7. -/
def Link.reset (ready : Bool) : Link :=
  ⟨true, .replicate 32 true, .replicate 72 true, .held, ready, false, none, false, []⟩

/-- The three ports at power-on and external reset (R165). -/
def Ports.reset (wire : Wire) : Ports :=
  ⟨.reset .booth, .reset .hire, .reset .operator, false, wire⟩

/-- What an allocation pass compares against before the start-up pass: R76's states. DESIGN CHOICE for the rest;
every key is pending then, so it decides nothing (log entry 24). -/
def PassMemo.start (bank : Fin 8) (programs : Table Program 32) : PassMemo :=
  ⟨bank, 0, [], programs.map (·.radiation)⟩

/-- The machine right after POWER_ON, its start-up check running (R186), the retained domain at the cold-start
defaults of R185 and the supply marker clear, as before any start-up has completed. DESIGN CHOICE for the
retained contents and the levels of the pins (log entries 6 and 7), and for the model's own count of start-ups cut short
(log entry 30). -/
def State.reset : State where
  now := 0
  powered := true
  resetAsserted := false
  startup := .checking
  checkSince := 0
  booth := ⟨.replicate 24 .default, .replicate 72 .reset, .replicate 24 none, []⟩
  programs := .ofFn .default
  planner := ⟨0, 0, none, defaultBudgets, 0, .start 0 (.ofFn .default), none⟩
  link := .reset false
  registry := ⟨[], .replicate 512 none, 80, .idle⟩
  hires := ⟨[], 1⟩
  settlement := ⟨.replicate 8 .default, []⟩
  session := ⟨.setup, ⟨0, 0⟩, false, 0, false, 1, .coldStart, 1, .zero, none⟩
  ports := .reset ⟨[], [], []⟩
  faults := .reset
  retention := ⟨false, .replicate 10 true⟩
  startUpsCut := 0
  pending := []

end Sys2Proof.Machine
end

