-- ==== Sys2Proof/Machine/Flags.lean ====
section
/-! DEFINITION. The flags and output lines that the K24 draws from its state: the port status flags and byte,
ATTN, FAULT_N, STARTING. -/

namespace Sys2Proof.Machine

/-- The Port Interface of port `p` (R165). -/
def State.port (s : State) (p : Port) : PortState :=
  match p with
  | .booth => s.ports.booth
  | .hire => s.ports.hire
  | .operator => s.ports.operator

/-- The state with the Port Interface of port `p` replaced. -/
def State.setPort (s : State) (p : Port) (v : PortState) : State :=
  match p with
  | .booth => { s with ports := { s.ports with booth := v } }
  | .hire => { s with ports := { s.ports with hire := v } }
  | .operator => { s with ports := { s.ports with operator := v } }

/-- STARTING, the same on all three ports: the start-up state reads RUNNING (R165, R186). -/
def State.starting (s : State) : Bool := s.startup ≠ .done

/-- The status flag BUSY (R165). -/
def PortState.busy (v : PortState) : Bool := v.request.isSome

/-- The status flag ANSWER_READY (R165). -/
def PortState.answerReady (v : PortState) : Bool := v.answer.isSome

/-- The status flag NOTICE_PENDING (R165). -/
def PortState.noticePending (v : PortState) : Bool := !v.queue.isEmpty

/-- The ATTN output of port `p` (R165). -/
def State.attn (s : State) (p : Port) : Bool := (s.port p).noticePending

/-- FAULT_N asserted: while ALERT_SEEN or SEVERE_SEEN is set (R183). -/
def State.faultN (s : State) : Bool := s.faults.alertSeen || s.faults.severeSeen

/-- The number of pending Distribution Link keys (R81). -/
def Link.pendingCount (k : Link) : Nat :=
  (if k.planKey then 1 else 0) + k.programKeys.rows.count true + k.deskKeys.rows.count true

/-- Whether any key is pending (R82). -/
def Link.anyPending (k : Link) : Bool :=
  k.planKey || k.programKeys.rows.any id || k.deskKeys.rows.any id

/-- A flag as bit `n` of the status byte. -/
def bitAt (b : Bool) (n : Nat) : Nat := if b then 2 ^ n else 0

/-- The port status byte (R178). -/
def State.statusByte (s : State) (p : Port) : Byte :=
  let v := s.port p
  BitVec.ofNat 8 (bitAt v.answerReady 0 + bitAt v.busy 1 + bitAt v.noticePending 2 + bitAt v.lost 3
    + bitAt s.starting 4)

end Sys2Proof.Machine
end

