-- ==== Sys2Proof/Machine/Operands.lean ====
section
/-! DEFINITION. Every operand form: how the parameters of each command are read from its bytes, and how the
fields of an answer are written as bytes (R169 check 4, R170). A reader answers none where the bytes do not
fit the command, or where an identifier or a named value is outside its range: both are answered MALFORMED. -/

namespace Sys2Proof.Machine

/-! ### Numbers as bytes -/

/-- A number in `w` bytes, most significant byte first (R170). -/
def be (w n : Nat) : List Byte :=
  match w with
  | 0 => []
  | k + 1 => be k (n / 256) ++ [BitVec.ofNat 8 n]

/-- The number that bytes hold, most significant byte first (R170). -/
def num (bs : List Byte) : Nat := bs.foldl (fun a b => a * 256 + b.toNat) 0

/-- A balance in four bytes, two's complement (R170). -/
def balanceBytes (z : Int) : List Byte := be 4 (BitVec.ofInt 32 z).toNat

/-- A flag or a yes-or-no indicator in one byte: 1 set, 0 clear. DEDUCED, log entry 10. -/
def flagByte (b : Bool) : List Byte := be 1 (if b then 1 else 0)

/-- An optional field: a presence byte, then the field when it is present (R170). -/
def optBytes (w : Nat) (v : Option Nat) : List Byte :=
  match v with
  | none => be 1 0
  | some n => be 1 1 ++ be w n

/-- A point in hall time: its absolute value in four bytes (R170). -/
def timeBytes (t : HallTime) : List Byte := be 4 t.abs

/-- An optional point in hall time (R170). -/
def optTimeBytes (t : Option HallTime) : List Byte := optBytes 4 (t.map (·.abs))

/-- A desk: a booth byte and a position byte (R170). -/
def deskBytes (d : DeskId) : List Byte := be 1 (d.booth.val + 1) ++ be 1 (d.pos.val + 1)

/-- An optional desk (R170). -/
def optDeskBytes (d : Option DeskId) : List Byte :=
  match d with
  | none => be 1 0
  | some d => be 1 1 ++ deskBytes d

/-- An optional program (R170). -/
def optProgBytes (p : Option Prog) : List Byte := optBytes 1 (p.map (·.val))

/-- A label: three character bytes (R170). -/
def labelBytes (l : Label) : List Byte := [l.c1, l.c2, l.c3]

/-! ### Codes of named values (R170) -/

/-- Ports: 1 Booth, 2 Hire, 3 Operator (R174, R177). -/
def portCode (p : Port) : Nat := match p with | .booth => 1 | .hire => 2 | .operator => 3

/-- Result codes (R169). -/
def Result.code (r : Result) : Nat :=
  match r with
  | .ok => 0 | .okClamped => 1 | .pending => 2 | .empty => 3 | .recovered => 4
  | .malformed => 16 | .wrongPort => 17 | .unknownCommand => 18 | .starting => 19
  | .notLive => 20 | .noInterpreter => 21 | .engaged => 22 | .busy => 23 | .inUse => 24
  | .tableFull => 25 | .ownOutput => 26 | .notConfigured => 27 | .locked => 28 | .held => 29
  | .notReady => 30 | .badgeActive => 31 | .unknown => 32 | .noClock => 33 | .linesFull => 34
  | .onHire => 35 | .duplicate => 36 | .notActive => 37

/-- Whether a result reports success: codes 0 to 4 (R169). -/
def Result.success (r : Result) : Bool := r.code ≤ 4

/-- Notice kind codes (R173). -/
def NoticeKind.code (k : NoticeKind) : Nat :=
  match k with
  | .handoverAsked => 1 | .handoverDone => 2 | .handoverLapsed => 3 | .handoverFailed => 4
  | .cut => 5 | .turnDue => 6 | .relayFallback => 7 | .relayRestored => 8
  | .programShed => 9 | .programRestored => 10 | .sessionChanged => 11 | .hireOverdue => 12
  | .presetShed => 13 | .receiverUnracked => 14 | .stocktakeAbandoned => 15
  | .settlementWaiting => 16 | .faultRaised => 17 | .bankChanged => 18 | .started => 19

/-- Fault codes (R181). -/
def FaultKind.code (f : FaultKind) : Nat :=
  match f with
  | .tickLost => 1 | .budgetDeficit => 2 | .noticeOverflow => 3 | .settlementBacklog => 4
  | .dlStall => 5 | .retentionLost => 6 | .clockStepBack => 7

/-- Whether a fault is of the severe class (R181). -/
def FaultKind.severe (f : FaultKind) : Bool :=
  match f with
  | .dlStall | .retentionLost => true
  | .tickLost | .budgetDeficit | .noticeOverflow | .settlementBacklog | .clockStepBack => false

/-- Fault classes: 1 alert, 2 severe (R183). -/
def FaultKind.classCode (f : FaultKind) : Nat := if f.severe then 2 else 1

/-- Session states: 1 SETUP, 2 LIVE, 3 RECESS (R152). -/
def Session.code (x : Session) : Nat := match x with | .setup => 1 | .live => 2 | .recess => 3

/-- Outputs: 1 A, 2 B (R26). -/
def Output.code (o : Output) : Nat := match o with | .a => 1 | .b => 2

/-- Last-off-air causes (R170). -/
def OffAirCause.code (c : OffAirCause) : Nat :=
  match c with
  | .none => 0 | .released => 1 | .handedOver => 2 | .forcedHandover => 3 | .overridden => 4
  | .switched => 5 | .session => 6

/-- Drop causes (R33). -/
def DropCause.code (c : DropCause) : Nat :=
  match c with
  | .expired => 1 | .cancelled => 2 | .logout => 3 | .overridden => 4 | .session => 5

/-- Relay reasons: 1 DEPTH, 2 LOOP (R50). -/
def RelayReason.code (r : RelayReason) : Nat := match r with | .depth => 1 | .loop => 2

/-- Levels, 0 to 3 (R41). -/
def Level.code (l : Level) : Nat :=
  match l with | .floorFallback => 0 | .direct => 1 | .relay => 2 | .secondRelay => 3

/-- Priorities in the order of R56: 1 CRITICAL, 2 HIGH, 3 LOW (R76). -/
def Priority.code (p : Priority) : Nat := match p with | .critical => 1 | .high => 2 | .low => 3

/-- Qualities in the order of R56: 1 STANDARD, 2 HIGH (R180). -/
def Quality.code (q : Quality) : Nat := match q with | .standard => 1 | .high => 2

/-- Engagement modes in the order of R56. -/
def Engagement.code (m : Engagement) : Nat := match m with | .interlock => 1 | .override => 2

/-- Radiation states (R180). -/
def Radiation.code (r : Radiation) : Nat :=
  match r with | .unconfigured => 1 | .carried => 2 | .demoted => 3 | .shed => 4

/-- The configured field in the order of R56: 1 yes, 2 no. That it is sent as a named value of R170, and not as a flag of log
entry 10, is the model's choice (DESIGN CHOICE, log entry 42). -/
def configuredCode (b : Bool) : Nat := if b then 1 else 2

/-- Handover modes in the order of R2. -/
def HandoverMode.code (m : HandoverMode) : Nat := match m with | .immediate => 1 | .negotiated => 2

/-- Expiry policies in the order of R2. -/
def ExpiryPolicy.code (p : ExpiryPolicy) : Nat := match p with | .force => 1 | .lapse => 2

/-- Desk states in the order of R5: 1 VACANT, 2 READY, 3 LIVE. -/
def DeskState.code (d : DeskState) : Nat :=
  match d with | .vacant => 1 | .ready _ => 2 | .live _ _ => 3

/-- Receiver states in the order of R92. -/
def ReceiverState.code (r : ReceiverState) : Nat :=
  match r with
  | .ready => 1 | .charging => 2 | .onHire => 3 | .unracked => 4 | .lost => 5 | .withdrawn => 6

/-- Hire states in the order of R111: 1 OPEN, 2 SETTLING. -/
def HireState.code (h : HireState) : Nat := match h with | .opened => 1 | .settling => 2

/-- Line states in the order of R112. -/
def LineState.code (l : LineState) : Nat := match l with | .out => 1 | .returned => 2 | .lost => 3

/-- Outcomes in a settlement record: 1 RETURNED, 2 LOST (R179). -/
def LineState.outcomeCode (l : LineState) : Nat := match l with | .lost => 2 | .out | .returned => 1

/-- Restart causes in the order of R159. -/
def RestartCause.code (c : RestartCause) : Nat :=
  match c with | .powerOn => 1 | .external => 2 | .coldStart => 3

/-- Link states in the order of R91: 1 HELD, 2 IDLE, 3 SENDING. -/
def LinkPhase.code (l : LinkPhase) : Nat := match l with | .held => 1 | .idle => 2 | .sending _ => 3

/-- A relay status: 1 OK or 2 BROKEN, then the reason as an optional field of its own (R40, R43, R170; DESIGN CHOICE, log
entry 40). -/
def relayBytes (r : Relay) : List Byte :=
  match r with
  | .ok => be 1 1 ++ be 1 0
  | .broken c => be 1 2 ++ be 1 1 ++ be 1 c.code

/-! ### Identifiers and named values read from bytes -/

/-- The place of an identifier that runs from `lo` over `n` values; none when it is out of range. -/
def index? (lo n v : Nat) : Option (Fin n) := if h : lo ≤ v ∧ v - lo < n then some ⟨v - lo, h.2⟩ else none

/-- A booth number, 1 to 24. -/
def booth? (b : Byte) : Option (Fin 24) := index? 1 24 b.toNat

/-- A desk: booth 1 to 24, position 1 to 3. -/
def desk? (b q : Byte) : Option DeskId :=
  match booth? b, index? 1 3 q.toNat with
  | some booth, some pos => some ⟨booth, pos⟩
  | _, _ => none

/-- A program number, 0 to 31. -/
def prog? (b : Byte) : Option Prog := index? 0 32 b.toNat

/-- A nonzero number. -/
def positive? (n : Nat) : Option Nat := if n = 0 then none else some n

/-- A hire number, 1 to 9999. -/
def hire? (n : Nat) : Option Nat := if 1 ≤ n ∧ n ≤ 9999 then some n else none

/-- A badge, 1 to 999,999. -/
def badge? (n : Nat) : Option Nat := if 1 ≤ n ∧ n ≤ 999999 then some n else none

/-- An output, 1 A or 2 B. -/
def output? (b : Byte) : Option Output :=
  match b.toNat with | 1 => some .a | 2 => some .b | _ => none

/-- A port, 1 to 3. -/
def port? (b : Byte) : Option Port :=
  match b.toNat with | 1 => some .booth | 2 => some .hire | 3 => some .operator | _ => none

/-- A notice kind by its code, 1 to 19. -/
def noticeKind? (b : Byte) : Option NoticeKind := allNoticeKinds.find? fun k => k.code == b.toNat

/-- A presence byte and the optional byte after it, with the bytes left over (R170). DEDUCED: a presence byte
other than 0 and 1 does not fit, log entry 20. -/
def takeOptional (bs : List Byte) : Option (Option Byte × List Byte) :=
  match bs with
  | [] => none
  | f :: rest =>
    if f.toNat = 0 then some (none, rest)
    else if f.toNat = 1 then
      match rest with
      | [] => none
      | v :: rest => some (some v, rest)
    else none

/-- An optional program of `lo` to 31: present and in range, or absent. -/
def optProg? (lo : Nat) (v : Option Byte) : Option (Option Prog) :=
  match v with
  | none => some none
  | some b => if lo ≤ b.toNat then (prog? b).map some else none

/-- A list of one-byte entries after its count byte, filling the rest of the parameters (R170). -/
def byteList? (bs : List Byte) : Option (List Byte) :=
  match bs with
  | [] => none
  | n :: rest => if rest.length = n.toNat then some rest else none

/-- Every entry read by `f`; none when one of them is not read. -/
def readAll? {α : Type} (f : Byte → Option α) (bs : List Byte) : Option (List α) :=
  match bs with
  | [] => some []
  | b :: rest =>
    match f b, readAll? f rest with
    | some a, some as => some (a :: as)
    | _, _ => none

/-- Two-byte entries; none when an entry is not whole. -/
def pairs? (bs : List Byte) : Option (List Nat) :=
  match bs with
  | [] => some []
  | [_] => none
  | a :: b :: rest => (pairs? rest).map (num [a, b] :: ·)

/-- A list of two-byte entries after its count byte, filling the rest of the parameters (R170). -/
def wordList? (bs : List Byte) : Option (List Nat) :=
  match bs with
  | [] => none
  | n :: rest =>
    match pairs? rest with
    | none => none
    | some ws => if ws.length = n.toNat then some ws else none

/-! ### The parameters of each command -/

/-- No parameters. -/
def noParams? (bs : List Byte) : Option Unit := match bs with | [] => some () | _ => none

/-- One byte, read by `f`. -/
def oneByte? {α : Type} (f : Byte → Option α) (bs : List Byte) : Option α :=
  match bs with | [b] => f b | _ => none

/-- A desk (LOGOUT, MIC OFF, READ DESK). -/
def deskParam? (bs : List Byte) : Option DeskId := match bs with | [b, q] => desk? b q | _ => none

/-- LOGIN (desk, ID): R9. -/
def loginParams? (bs : List Byte) : Option (DeskId × Nat) :=
  match bs with
  | [b, q, h, l] =>
    match desk? b q, positive? (num [h, l]) with
    | some d, some id => some (d, id)
    | _, _ => none
  | _ => none

/-- MIC ON (desk, output): R11. -/
def micOnParams? (bs : List Byte) : Option (DeskId × Output) :=
  match bs with
  | [b, q, o] =>
    match desk? b q, output? o with
    | some d, some out => some (d, out)
    | _, _ => none
  | _ => none

/-- SELECT SOURCE (desk, source): R42. -/
def selectParams? (bs : List Byte) : Option (DeskId × Source) :=
  match bs with
  | [b, q, x] =>
    match desk? b q, prog? x with
    | some d, some src => some (d, src)
    | _, _ => none
  | _ => none

/-- READ INTERPRETER (selector, value): BY_ID is `inl`, BY_ORDER is `inr` with a place from 1 to 96 (R8). The one value
field is two bytes wide under both selectors: the model's choice (DESIGN CHOICE, log entry 37). -/
def interpreterParams? (bs : List Byte) : Option (Nat ⊕ Nat) :=
  match bs with
  | [k, h, l] =>
    if k.toNat = 1 then (positive? (num [h, l])).map .inl
    else if k.toNat = 2 then
      if 1 ≤ num [h, l] ∧ num [h, l] ≤ 96 then some (.inr (num [h, l])) else none
    else none
  | _ => none

/-- What SET BOOTH carries (R3). -/
structure BoothArgs where
  booth : Fin 24
  outputs : Outputs
  mode : HandoverMode
  window : Nat
  policy : ExpiryPolicy
  turnLimit : Nat
deriving DecidableEq, Repr

/-- A handover mode by its code. -/
def handoverMode? (b : Byte) : Option HandoverMode :=
  match b.toNat with | 1 => some .immediate | 2 => some .negotiated | _ => none

/-- An expiry policy by its code. -/
def expiryPolicy? (b : Byte) : Option ExpiryPolicy :=
  match b.toNat with | 1 => some .force | 2 => some .lapse | _ => none

/-- R3's check 1 on the two outputs: B is present only beside A, and differs from it. -/
def outputs? (a b : Option Prog) : Option Outputs :=
  match a, b with
  | none, some _ => none
  | some x, some y => if x = y then none else some ⟨some x, some y⟩
  | a, none => some ⟨a, none⟩

/-- SET BOOTH (booth, output A, output B, mode, window, policy, turn limit): R3. -/
def setBoothParams? (bs : List Byte) : Option BoothArgs :=
  match bs with
  | [] => none
  | n :: rest =>
    match takeOptional rest with
    | none => none
    | some (va, rest) =>
      match takeOptional rest with
      | none => none
      | some (vb, rest) =>
        match rest with
        | [m, w, e, t] =>
          match booth? n, optProg? 1 va, optProg? 1 vb, handoverMode? m, expiryPolicy? e with
          | some booth, some a, some b, some mode, some policy =>
            (outputs? a b).map fun o => ⟨booth, o, mode, w.toNat, policy, t.toNat⟩
          | _, _, _, _, _ => none
        | _ => none

/-- A legal label: three capitals A to Z, or "---" (R56, R59). -/
def label? (a b c : Byte) : Option Label :=
  let capital (x : Byte) : Bool := 0x41 ≤ x.toNat && x.toNat ≤ 0x5A
  if (capital a && capital b && capital c) || (⟨a, b, c⟩ : Label) == .default then some ⟨a, b, c⟩
  else none

/-- A configured value by its code (R59; log entry 42). -/
def configured? (b : Byte) : Option Bool := match b.toNat with | 1 => some true | 2 => some false | _ => none

/-- A priority by its code. -/
def priority? (b : Byte) : Option Priority :=
  match b.toNat with | 1 => some .critical | 2 => some .high | 3 => some .low | _ => none

/-- A quality by its code. -/
def quality? (b : Byte) : Option Quality :=
  match b.toNat with | 1 => some .standard | 2 => some .high | _ => none

/-- An engagement mode by its code. -/
def engagement? (b : Byte) : Option Engagement :=
  match b.toNat with | 1 => some .interlock | 2 => some .override | _ => none

/-- SET PROGRAM (program, configured, label, priority, quality, engagement mode): R59. -/
def setProgramParams? (bs : List Byte) : Option (Prog × ProgConfig) :=
  match bs with
  | [n, f, a, b, c, pr, q, m] =>
    match prog? n, configured? f, label? a b c, priority? pr, quality? q, engagement? m with
    | some p, some configured, some label, some priority, some quality, some engagement =>
      some (p, ⟨configured, label, priority, quality, engagement⟩)
    | _, _, _, _, _, _ => none
  | _ => none

/-- SET BANK BUDGET (bank, budget): R69. -/
def bankParams? (bs : List Byte) : Option (Fin 8 × Nat) :=
  match bs with
  | [k, v] => (index? 0 8 k.toNat).map fun bank => (bank, v.toNat)
  | _ => none

/-- READ PLAN's selectors (R68). -/
inductive PlanSelector
  | committed
  | pendingPrograms
  | pendingBooths
deriving DecidableEq, Repr

/-- A READ PLAN selector by its code, in the order of R68. -/
def planSelector? (b : Byte) : Option PlanSelector :=
  match b.toNat with | 1 => some .committed | 2 => some .pendingPrograms | 3 => some .pendingBooths | _ => none

/-- A receiver number, 1 to 65535, in two bytes. -/
def receiverParam? (bs : List Byte) : Option Nat :=
  match bs with | [h, l] => positive? (num [h, l]) | _ => none

/-- RACK SEATED (receiver, slot, battery): R101. -/
def seatedParams? (bs : List Byte) : Option (Nat × Fin 512 × Nat) :=
  match bs with
  | [h, l, sh, sl, v] =>
    match positive? (num [h, l]), index? 1 512 (num [sh, sl]) with
    | some n, some slot => some (n, slot, v.toNat)
    | _, _ => none
  | _ => none

/-- RACK BATTERY (receiver, battery): R103. -/
def batteryParams? (bs : List Byte) : Option (Nat × Nat) :=
  match bs with
  | [h, l, v] => (positive? (num [h, l])).map fun n => (n, v.toNat)
  | _ => none

/-- A slot, 1 to 512, in two bytes (RACK REMOVED). -/
def slotParam? (bs : List Byte) : Option (Fin 512) :=
  match bs with | [h, l] => index? 1 512 (num [h, l]) | _ => none

/-- READ RECEIVER's selectors and their values (R95). -/
inductive ReceiverSelector
  | byNumber (n : Nat)
  | byOrder (place : Nat)
  | bySlot (slot : Fin 512)
deriving DecidableEq, Repr

/-- READ RECEIVER (selector, value): R95. -/
def readReceiverParams? (bs : List Byte) : Option ReceiverSelector :=
  match bs with
  | [k, h, l] =>
    match k.toNat with
    | 1 => (positive? (num [h, l])).map .byNumber
    | 2 => if 1 ≤ num [h, l] ∧ num [h, l] ≤ 2048 then some (.byOrder (num [h, l])) else none
    | 3 => (index? 1 512 (num [h, l])).map .bySlot
    | _ => none
  | _ => none

/-- What OPEN HIRE carries (R115). -/
structure OpenArgs where
  badge : Nat
  plan : Fin 8
  deposit : Nat
  preset : Option Prog
  receivers : List Nat
deriving DecidableEq, Repr

/-- OPEN HIRE (badge, plan, deposit, preset, receivers): R115 check 1. -/
def openHireParams? (bs : List Byte) : Option OpenArgs :=
  match bs with
  | b1 :: b2 :: b3 :: k :: d1 :: d2 :: d3 :: rest =>
    match takeOptional rest with
    | none => none
    | some (v, rest) =>
      match badge? (num [b1, b2, b3]), index? 0 8 k.toNat, optProg? 0 v, wordList? rest with
      | some badge, some plan, some preset, some rs =>
        if 1 ≤ rs.length ∧ rs.length ≤ 8 ∧ 0 ∉ rs then
          some ⟨badge, plan, num [d1, d2, d3], preset, rs⟩
        else none
      | _, _, _, _ => none
  | _ => none

/-- A hire and a receiver (ADD RECEIVER, WRITE OFF): R117, R122. -/
def hireReceiverParams? (bs : List Byte) : Option (Nat × Nat) :=
  match bs with
  | [a, b, c, d] =>
    match hire? (num [a, b]), positive? (num [c, d]) with
    | some h, some r => some (h, r)
    | _, _ => none
  | _ => none

/-- CHANGE PRESET (hire, preset): R123. -/
def changePresetParams? (bs : List Byte) : Option (Nat × Option Prog) :=
  match bs with
  | a :: b :: rest =>
    match takeOptional rest with
    | some (v, []) =>
      match hire? (num [a, b]), optProg? 0 v with
      | some h, some preset => some (h, preset)
      | _, _ => none
    | _ => none
  | _ => none

/-- READ HIRE's selectors (R113). -/
inductive HireSelector
  | byNumber (n : Nat)
  | byOrder (place : Nat)
deriving DecidableEq, Repr

/-- READ HIRE (selector, value, part); the part is LINES when the flag is true (R113). -/
def readHireParams? (bs : List Byte) : Option (HireSelector × Bool) :=
  match bs with
  | [k, h, l, part] =>
    let sel : Option HireSelector :=
      match k.toNat with
      | 1 => (hire? (num [h, l])).map .byNumber
      | 2 => if 1 ≤ num [h, l] ∧ num [h, l] ≤ 512 then some (.byOrder (num [h, l])) else none
      | _ => none
    match sel, part.toNat with
    | some x, 1 => some (x, true)
    | some x, 2 => some (x, false)
    | _, _ => none
  | _ => none

/-- FIND BADGE (badge): R125. -/
def badgeParam? (bs : List Byte) : Option Nat :=
  match bs with | [a, b, c] => badge? (num [a, b, c]) | _ => none

/-- SET TARIFF (plan, grace, unit length, unit charge, daily cap, lost charge, hire limit), before clamping:
R135. -/
def tariffParams? (bs : List Byte) : Option (Fin 8 × Tariff) :=
  match bs with
  | [k, g, u1, u2, c1, c2, d1, d2, d3, l1, l2, l3, h] =>
    (index? 0 8 k.toNat).map fun plan =>
      (plan, ⟨g.toNat, num [u1, u2], num [c1, c2], num [d1, d2, d3], num [l1, l2, l3], h.toNat⟩)
  | _ => none

/-- A tariff plan number, 0 to 7. -/
def plan? (b : Byte) : Option (Fin 8) := index? 0 8 b.toNat

/-- SET CLOCK (day, second), before clamping: R156. -/
def clockParams? (bs : List Byte) : Option (Nat × Nat) :=
  match bs with | [a, b, c, d, e] => some (num [a, b], num [c, d, e]) | _ => none

/-- SET NOTICE MASK: a list of 0 to 19 kind codes, each a kind that goes to the asking port (R176). -/
def maskParams? (p : Port) (bs : List Byte) : Option (List NoticeKind) :=
  match byteList? bs with
  | none => none
  | some codes =>
    if codes.length ≤ 19 then
      readAll? (fun b => (noticeKind? b).filter fun k => k ∈ kindsOf p) codes
    else none

/-- The three fault flags by name (R184). -/
inductive FlagName
  | alertSeen
  | severeSeen
  | multipleSevere
deriving DecidableEq, Repr

/-- A flag name by its code (R184). -/
def flagName? (b : Byte) : Option FlagName :=
  match b.toNat with | 1 => some .alertSeen | 2 => some .severeSeen | 3 => some .multipleSevere | _ => none

/-- CLEAR FAULTS: a list of 0 to 3 flag names (R184). -/
def clearParams? (bs : List Byte) : Option (List FlagName) :=
  match byteList? bs with
  | none => none
  | some codes => if codes.length ≤ 3 then readAll? flagName? codes else none

/-! ### Check 4 of R169: the parameter length -/

/-- The parameter length of a command whose parameters have one length; none for the other codes (R169, R170). That READ
INTERPRETER's value takes two bytes under both selectors is the model's choice (DESIGN CHOICE, log entry 37). -/
def paramLength? (code : Byte) : Option Nat :=
  match code.toNat with
  | 0x01 | 0x02 | 0x04 | 0x3A | 0x3B | 0x3C | 0x50 | 0x51 | 0x52 | 0x53 | 0x56 | 0x57 | 0x58 | 0x5D | 0x62 | 0x65 | 0x66 =>
    some 0
  | 0x14 | 0x17 | 0x18 | 0x5B | 0x67 | 0x68 | 0x69 => some 1
  | 0x11 | 0x13 | 0x16 | 0x32 | 0x39 | 0x59 | 0x5E | 0x5F | 0x60 | 0x61 => some 2
  | 0x12 | 0x15 | 0x36 | 0x38 | 0x3D | 0x64 => some 3
  | 0x10 | 0x31 | 0x33 | 0x35 => some 4
  | 0x37 | 0x5C => some 5
  | 0x55 => some 8
  | 0x5A => some 13
  | _ => none

/-- A count byte from `lo` to `hi` and then that many entries of `w` bytes, each whole (R169, R170). -/
def listFits (w lo hi : Nat) (bs : List Byte) : Bool :=
  match bs with
  | [] => false
  | n :: rest => rest.length == w * n.toNat && decide (lo ≤ n.toNat ∧ n.toNat ≤ hi)

/-- An optional byte (R170) and then bytes that `rest` takes (log entry 20). -/
def optionalThen (rest : List Byte → Bool) (bs : List Byte) : Bool :=
  match takeOptional bs with
  | none => false
  | some (_, left) => rest left

/-- Whether the parameters are of a length that fits the command: the check that the port makes (R169). SET NOTICE MASK and
CLEAR FAULTS carry a list of at most 19 and 3 bytes, OPEN HIRE ends in an optional byte and a list of 1 to 8 two-byte
numbers, CHANGE PRESET ends in an optional byte, and SET BOOTH has two optional bytes after its first (R3, R115, R123,
R176, R184). -/
def paramsFit (code : Byte) (bs : List Byte) : Bool :=
  match code.toNat with
  | 0x03 => listFits 1 0 19 bs
  | 0x63 => listFits 1 0 3 bs
  | 0x30 => decide (7 ≤ bs.length) && optionalThen (listFits 2 1 8) (bs.drop 7)
  | 0x34 => decide (2 ≤ bs.length) && optionalThen (fun left => left.isEmpty) (bs.drop 2)
  | 0x54 => optionalThen (optionalThen fun left => left.length == 4) (bs.drop 1)
  | _ => some bs.length == paramLength? code

/-- A value held within `lo` to `hi` (00, Configuration values). -/
def clamp (lo hi n : Nat) : Nat := max lo (min hi n)

end Sys2Proof.Machine
end

