-- ==== Sys2Proof/Machine/Ops.lean ====
section
/-! DEFINITION. The operations that the blocks share: reads and writes of the tables (a write to a retained group
keeps its check word in step, R185), notices (R173, R174), fault raises (R181 to R183, R186), the Distribution
Link's keys and stall watch (R81, R88), and the handling of a request (R167, R169). -/

namespace Sys2Proof.Machine

/-! ### The retained groups (R185) -/

/-- The check word of retained group `g` + 1 is recomputed from its contents (R185). -/
def State.rewrite (s : State) (g : Fin 10) : State :=
  { s with retention := { s.retention with intact := s.retention.intact.set g true } }

/-! ### The Booth Section's tables -/

/-- The record of desk `d`. -/
def State.desk (s : State) (d : DeskId) : Desk := s.booth.desks.get d.idx

/-- Desk `d` changed by `f`; the desk records are volatile (R5). -/
def State.modifyDesk (s : State) (d : DeskId) (f : Desk → Desk) : State :=
  { s with booth := { s.booth with desks := s.booth.desks.modify d.idx f } }

/-- The committed configuration of booth `b`. -/
def State.boothConfig (s : State) (b : Fin 24) : BoothConfig := s.booth.configs.get b

/-- The program a booth's outputs name for output `o` (R6). -/
def Outputs.get (x : Outputs) (o : Output) : Option Prog :=
  match o with
  | .a => x.a
  | .b => x.b

/-- Booth `b`'s committed configuration written: retained group 6. -/
def State.setBoothConfig (s : State) (b : Fin 24) (c : BoothConfig) : State :=
  ({ s with booth := { s.booth with configs := s.booth.configs.set b c } }).rewrite 5

/-- Booth `b`'s handover request, if it holds one. -/
def State.request (s : State) (b : Fin 24) : Option HandoverRequest := s.booth.requests.get b

/-- Booth `b`'s handover request set or removed; volatile (R25). -/
def State.setRequest (s : State) (b : Fin 24) (r : Option HandoverRequest) : State :=
  { s with booth := { s.booth with requests := s.booth.requests.set b r } }

/-- The interpreter table written: retained group 8. -/
def State.setInterpreters (s : State) (l : List Interpreter) : State :=
  ({ s with booth := { s.booth with interpreters := l } }).rewrite 7

/-- The entry of interpreter `id`, if the table has one (R7). -/
def State.interpreter (s : State) (id : Nat) : Option Interpreter := s.booth.interpreters.find? (·.id == id)

/-- The entry of interpreter `id` changed by `f`. -/
def State.modifyInterpreter (s : State) (id : Nat) (f : Interpreter → Interpreter) : State :=
  s.setInterpreters (s.booth.interpreters.map fun e => if e.id = id then f e else e)

/-! ### The Program Table -/

/-- The record of program `p`. -/
def State.program (s : State) (p : Prog) : Program := s.programs.get p

/-- Program `p`'s volatile fields changed by `f`. -/
def State.modifyProgram (s : State) (p : Prog) (f : Program → Program) : State :=
  { s with programs := s.programs.modify p f }

/-- Every program's retained fields changed by `f`: retained group 5. -/
def State.writePrograms (s : State) (f : Prog → Program → Program) : State :=
  ({ s with programs := s.programs.mapIdx f }).rewrite 4

/-- Program `p`'s configuration written: retained group 5. -/
def State.setProgConfig (s : State) (p : Prog) (c : ProgConfig) : State :=
  (s.modifyProgram p fun r => { r with config := c }).rewrite 4

/-- The budget of the current bank (R69). -/
def State.budget (s : State) : Nat := s.planner.budgets.get s.planner.bank

/-! ### The Receiver Registry's tables: retained group 1 -/

/-- The receiver records written. -/
def State.setReceivers (s : State) (l : List Receiver) : State :=
  ({ s with registry := { s.registry with receivers := l } }).rewrite 0

/-- The record of receiver `n`, if it has one (R92). -/
def State.receiver (s : State) (n : Nat) : Option Receiver := s.registry.receivers.find? (·.number == n)

/-- The record of receiver `n` changed by `f`. -/
def State.modifyReceiver (s : State) (n : Nat) (f : Receiver → Receiver) : State :=
  s.setReceivers (s.registry.receivers.map fun r => if r.number = n then f r else r)

/-- The slot map's entry for `k` set to `v`. -/
def State.setSlot (s : State) (k : Fin 512) (v : Option Nat) : State :=
  ({ s with registry := { s.registry with slots := s.registry.slots.set k v } }).rewrite 0

/-- The stocktake's fields set; volatile (R107). -/
def State.setStocktake (s : State) (k : Stocktake) : State :=
  { s with registry := { s.registry with stocktake := k } }

/-! ### The Hire Table, the Settlement Unit, Session and Clock -/

/-- The hire records written: retained group 2. -/
def State.setHires (s : State) (l : List Hire) : State :=
  ({ s with hires := { s.hires with records := l } }).rewrite 1

/-- The hire number counter written: retained group 2. -/
def State.setHireCounter (s : State) (n : Nat) : State :=
  ({ s with hires := { s.hires with counter := n } }).rewrite 1

/-- The record that holds hire number `n`, if one does (R111). -/
def State.hire (s : State) (n : Nat) : Option Hire := s.hires.records.find? (·.number == n)

/-- The record of hire `n` changed by `f`. -/
def State.modifyHire (s : State) (n : Nat) (f : Hire → Hire) : State :=
  s.setHires (s.hires.records.map fun h => if h.number = n then f h else h)

/-- The settlement queue written: retained group 3. -/
def State.setQueue (s : State) (l : List Settled) : State :=
  ({ s with settlement := { s.settlement with queue := l } }).rewrite 2

/-- Tariff plan `k` written: retained group 4. -/
def State.setTariff (s : State) (k : Fin 8) (t : Tariff) : State :=
  ({ s with settlement := { s.settlement with tariffs := s.settlement.tariffs.set k t } }).rewrite 3

/-- The hall clock and its validity written: retained group 9. -/
def State.setClock (s : State) (t : HallTime) (valid : Bool) : State :=
  ({ s with session := { s.session with clock := t, valid := valid } }).rewrite 8

/-- The restart count and cause written: retained group 9. -/
def State.setRestart (s : State) (n : BitVec 16) (c : RestartCause) : State :=
  ({ s with session := { s.session with restartCount := n, restartCause := c } }).rewrite 8

/-- The tick watch restarted from 0, TICKING (R158); volatile. -/
def State.restartTickWatch (s : State) : State :=
  { s with session := { s.session with tickSince := s.now, tickLost := false } }

/-- The session state set; volatile (R151). -/
def State.setSession (s : State) (x : Session) : State := { s with session := { s.session with state := x } }

/-- The day counters changed by `f`: retained group 10. -/
def State.modifyCounters (s : State) (f : DayCounters → DayCounters) : State :=
  ({ s with session := { s.session with counters := f s.session.counters } }).rewrite 9

/-- A day counter increased by `k`, saturating at 4,294,967,295 (R160). -/
def satAdd32 (n k : Nat) : Nat := min 4294967295 (n + k)

/-! ### The internal timebase -/

/-- A reading of the timebase is reached: the count is at or above it, the two compared as plain numbers (R1). -/
def State.reached (s : State) (t : Nat) : Bool := t ≤ s.now

/-- The timebase one millisecond on, while main power is present; at its end it stays, for it does not wrap (R1; DEDUCED,
log entry 4). -/
def State.countMs (s : State) : State := if s.powered then { s with now := min lastCount (s.now + 1) } else s

/-- Main power is present and RESET_N is released, so that the ports take transactions and the debounce runs
(R188). -/
def State.operating (s : State) : Bool := s.powered && !s.resetAsserted

/-! ### Notices and faults -/

/-- A notice offered to one port, and whether it was dropped from a full queue (R174). -/
def State.offer (s : State) (p : Port) (n : Notice) : State × Bool :=
  let v := s.port p
  if n.kind ∉ v.mask then (s, false)
  else if v.queue.length < 16 then (s.setPort p { v with queue := v.queue ++ [n] }, false)
  else (s.setPort p { v with lost := true }, true)

/-- The fault flags as raised, before any notice (R182). The flag tells whether details were latched. -/
def FaultCapture.take (c : FaultCapture) (f : FaultKind) (context : Nat) (time : HallTime) :
    FaultCapture × Bool :=
  if f.severe then
    if c.severeSeen then ({ c with multipleSevere := true }, false)
    else ({ c with record := some ⟨f, context, time⟩, severeSeen := true }, true)
  else
    if c.alertSeen || c.severeSeen || c.multipleSevere then ({ c with alertSeen := true }, false)
    else ({ c with record := some ⟨f, context, time⟩, alertSeen := true }, true)

/-- A fault raised into Fault Capture (R182, R183): a raise that latches queues FAULT_RAISED to the Operator port.
If that notice is itself dropped, the NOTICE_OVERFLOW it raises finds a flag set, so it sets ALERT_SEEN and the
chain ends there (R174). -/
def State.raiseNow (s : State) (f : FaultKind) (context : Nat) : State :=
  let (c, latched) := s.faults.take f context s.session.clock
  let s := { s with faults := c }
  if latched then
    let (s, dropped) :=
      s.offer .operator ⟨.faultRaised, s.session.clock, [f.code, f.classCode, context, 0]⟩
    if dropped then
      { s with faults := (s.faults.take .noticeOverflow (portCode .operator) s.session.clock).1 }
    else s
  else s

/-- A fault raised: into Fault Capture, or held while a start-up is running (R186). -/
def State.raiseFault (s : State) (f : FaultKind) (context : Nat) : State :=
  if s.starting then { s with faults := { s.faults with held := s.faults.held ++ [(f, context)] } }
  else s.raiseNow f context

/-- A notice offered to each of `ports` in turn, with the ports that dropped it, in order. -/
def State.offerAll (s : State) (ports : List Port) (n : Notice) : State × List Port :=
  match ports with
  | [] => (s, [])
  | p :: rest =>
    let (s, dropped) := s.offer p n
    let (s, more) := s.offerAll rest n
    (s, if dropped then p :: more else more)

/-- NOTICE_OVERFLOW raised for each port that dropped a notice (R173). -/
def State.raiseOverflows (s : State) (dropped : List Port) : State :=
  dropped.foldl (fun s p => s.raiseFault .noticeOverflow (portCode p)) s

/-- A notice queued to every port of its kind, at the present hall time; the drops raise NOTICE_OVERFLOW after it
has been offered to all of them (R173, R174). -/
def State.notify (s : State) (k : NoticeKind) (a b c d : Nat) : State :=
  let (s, dropped) := s.offerAll k.ports ⟨k, s.session.clock, [a, b, c, d]⟩
  s.raiseOverflows dropped

/-! ### The Distribution Link's keys and watch -/

/-- The stall watch brought in step with its three conditions (R88): it starts from 0 when they come to hold
together, runs on while they hold, and stops when one of them ends. -/
def Link.watched (k : Link) (now : Nat) : Link :=
  if k.phase = .idle ∧ k.anyPending ∧ ¬ k.ready then
    { k with stallSince := some (k.stallSince.getD now) }
  else { k with stallSince := none }

/-- A send opportunity arises: the link is IDLE, READY is asserted and a key is pending (R82, R90). -/
def Link.opportunity (k : Link) : Bool := k.phase == .idle && k.ready && k.anyPending

/-- The link changed by `f`, its stall watch then brought in step. -/
def State.updateLink (s : State) (f : Link → Link) : State := { s with link := (f s.link).watched s.now }

/-! ### Requests (R167, R169) -/

/-- The bytes the K24 shifts out in a transaction on port `p` (R166); the model's own field (log entry 13). -/
def State.shiftOut (s : State) (p : Port) (bs : List Byte) : State :=
  match p with
  | .booth => { s with ports := { s.ports with wire := { s.ports.wire with booth := bs } } }
  | .hire => { s with ports := { s.ports with wire := { s.ports.wire with hire := bs } } }
  | .operator => { s with ports := { s.ports with wire := { s.ports.wire with operator := bs } } }

/-- Port `p` reset to the values of R165 (R177). -/
def State.resetPort (s : State) (p : Port) : State := s.setPort p (.reset p)

/-- A pending self-reset of the Operator port carried out, when the transaction is on that port (R177). -/
def State.takeSelfReset (s : State) (p : Port) : State :=
  if p = .operator ∧ s.ports.selfReset then
    let s := s.resetPort .operator
    { s with ports := { s.ports with selfReset := false } }
  else s

/-- A request frame is taken on port `p`: a pending self-reset is carried out first (R177), and any unread answer
is discarded (R167). -/
def State.openRequest (s : State) (p : Port) : State :=
  let s := (s.shiftOut p [s.statusByte p]).takeSelfReset p
  s.setPort p { s.port p with answer := none }

/-- The turn of a request taken now: above that of every request that waits. -/
def State.nextTurn (s : State) : Nat :=
  (Option.toList s.ports.booth.request ++ Option.toList s.ports.hire.request ++ Option.toList s.ports.operator.request).foldl
    (fun n r => max n (r.turn + 1)) 0

/-- The request placed in port `p`'s request slot, which sets BUSY (R167). -/
def State.placeRequest (s : State) (p : Port) (code : Byte) (params : List Byte) : State :=
  s.setPort p { s.port p with request := some ⟨code, params, s.nextTurn⟩ }

/-- The answer placed in port `p`'s answer slot, the request slot emptied (R167). -/
def State.placeAnswer (s : State) (p : Port) (code : Byte) (r : Result) (fields : List Byte) : State :=
  s.setPort p { s.port p with request := none, answer := some ⟨code, r, fields⟩ }

/-- Whether R169's table accepts a command on port `p`. -/
def acceptedOn (code : Byte) (p : Port) : Bool :=
  match commandAccess code with
  | some .every => true
  | some (.only q) => p == q
  | none => false

/-- A reply that changes nothing. -/
def State.refuse (s : State) (r : Result) : Reply := ⟨s, r, []⟩

/-- R169's four checks on a request, made by the port when a whole frame has been taken: start-up (READ STATUS, code 1, is
answered all the same), the command code, the port, and the parameter length. The result of the first that decides; none
when the request passes them. -/
def State.portCheck (s : State) (p : Port) (code : Byte) (params : List Byte) : Option Result :=
  if s.starting && code != 0x01#8 then some .starting
  else if (commandAccess code).isNone then some .unknownCommand
  else if !acceptedOn code p then some .wrongPort
  else if !paramsFit code params then some .malformed
  else none

/-- A whole request frame is taken on port `p` (R167): the request goes into the slot, and a check of R169 that decides
answers it there and then. One that passes them stays in the slot for its owning block. -/
def State.takeRequest (s : State) (p : Port) (code : Byte) (params : List Byte) : State :=
  let t := (s.openRequest p).placeRequest p code params
  match s.portCheck p code params with
  | some r => t.placeAnswer p code r []
  | none => t

/-- The request in port `p`'s slot is handled by its owning block's `body`, which makes the block's own checks, and the
answer takes its place (R167, R169). -/
def State.handle (s : State) (p : Port) (code : Byte) (body : State → Reply) : State :=
  let reply := body s
  reply.state.placeAnswer p code reply.result reply.fields

/-- The request of a command row on port `p` (log entry 5). A request that already waits in the slot has passed the port's
checks and is handled. With the slot empty, the transaction that brings the request is taken first (R167), and the request
is handled if it passes the port's checks; parameters that no frame can declare are answered MALFORMED. While another
request is in progress, the frame is ignored. While RESET_N is asserted or main power is off, no transaction is taken
(R188). -/
def State.serve (s : State) (p : Port) (code : Byte) (params : List Byte) (body : State → Reply) : State :=
  if s.operating then
    match (s.port p).request with
    | some r =>
      if r.code = code ∧ r.params = params then s.handle p code body else s.shiftOut p [s.statusByte p]
    | none =>
      if params.length ≤ 250 then
        let t := s.takeRequest p code params
        if (s.portCheck p code params).isSome then t else t.handle p code body
      else (s.openRequest p).placeAnswer p code .malformed []
  else s

/-- The body of a command whose parameters are read by `parse`: bytes that do not fit, or an identifier out of
range, are answered MALFORMED and change nothing (R169). That this refusal carries no field, for the reads whose rule gives
every answer its counts too, is the model's choice (R8, R95, R113; DESIGN CHOICE, log entry 46). -/
def withParams {α : Type} (parsed : Option α) (f : α → State → Reply) (s : State) : Reply :=
  match parsed with
  | none => s.refuse .malformed
  | some a => f a s

end Sys2Proof.Machine
end

