-- ==== Sys2Proof/Machine/PortCommands.lean ====
section
/-! DEFINITION. The Port Interfaces and Fault Capture's commands (spec/10, spec/11): the transactions, READ STATUS, READ
NOTICE, SET NOTICE MASK, READ CAPABILITY, PORT RESET, READ FAULTS, CLEAR FAULTS, and a request of unknown code. -/

namespace Sys2Proof.Machine

/-! ### Transactions (R166 to R168) -/

/-- The frame of a request transaction as it stands on the wire (R167, R178). -/
inductive Frame
  /-- No command code. -/
  | absent
  /-- Cut short, or with a length byte above 250. -/
  | broken (code : Byte)
  /-- A whole frame; bytes after the declared parameters are left out. -/
  | whole (code : Byte) (params : List Byte)
deriving DecidableEq, Repr

/-- A request frame read from the bytes after transaction byte 1 (R167, R178). -/
def readFrame (bs : List Byte) : Frame :=
  match bs with
  | [] => .absent
  | [code] => .broken code
  | code :: len :: rest =>
    if 250 < len.toNat ∨ rest.length < len.toNat then .broken code else .whole code (rest.take len.toNat)

/-- A request transaction with the port's BUSY flag clear (R167). -/
def State.takeFrame (s : State) (p : Port) (f : Frame) : State :=
  match f with
  | .absent => s.shiftOut p [s.statusByte p]
  | .broken code => (s.openRequest p).placeAnswer p code .malformed []
  | .whole code params => s.takeRequest p code params

/-- REQUEST_TRANSACTION (R167): a frame that arrives while BUSY is ignored in full. A request that passes the port's checks
(R169) waits in its slot, and its owning block is handed it by `State.idle`, before any time passes (log entry 45). -/
def execRequestTransaction (p : Port) (frame : List Byte) (s : State) : Host.Outcome State Fault Refusal :=
  .next <|
    if s.operating then
      if (s.port p).busy then s.shiftOut p [s.statusByte p] else s.takeFrame p (readFrame frame)
    else s

/-- An answer frame's bytes (R178). -/
def Answer.frame (a : Answer) : List Byte :=
  [a.code] ++ be 1 a.result.code ++ be 1 a.fields.length ++ a.fields

/-- The frame sent when the answer slot is empty: code 00, EMPTY, length 0 (R168). -/
def emptyFrame : List Byte := be 1 0 ++ be 1 Result.empty.code ++ be 1 0

/-- FETCH_ANSWER (R168): the answer is sent and its slot emptied; the fetch of an answer carries out a pending
self-reset (R177). -/
def execFetchAnswer (p : Port) (s : State) : Host.Outcome State Fault Refusal :=
  .next <|
    if s.operating then
      match (s.port p).answer with
      | some a =>
        let s := s.shiftOut p ([s.statusByte p] ++ a.frame)
        (s.setPort p { s.port p with answer := none }).takeSelfReset p
      | none => s.shiftOut p ([s.statusByte p] ++ emptyFrame)
    else s

/-- STATUS_ONLY (R166). -/
def execStatusOnly (p : Port) (s : State) : Host.Outcome State Fault Refusal :=
  .next (if s.operating then s.shiftOut p [s.statusByte p] else s)

/-- UNDEFINED_TRANSACTION_BYTE (R166): answered with the status byte. Bytes 1 to 3 are none of these events. -/
def execUndefinedTransactionByte (p : Port) (byte : Byte) (s : State) : Host.Outcome State Fault Refusal :=
  .next (if s.operating && (byte.toNat == 0 || decide (3 < byte.toNat)) then s.shiftOut p [s.statusByte p] else s)

/-- UNKNOWN_COMMAND (R169): a request whose code is not in the command table. It ends at R169's second
check at the latest, so no body is reached. A code that is in the table makes another event. -/
def execUnknownCommand (p : Port) (code : Byte) (params : List Byte) (s : State) :
    Host.Outcome State Fault Refusal :=
  .next (if (commandAccess code).isNone then s.serve p code params fun t => t.refuse .unknownCommand else s)

/-! ### READ STATUS and READ CAPABILITY -/

/-- The tick watch state's code: 1 TICKING, 2 LOST (R158, R171). -/
def State.watchCode (s : State) : Nat := if s.session.tickLost then 2 else 1

/-- The capture's three flags and FAULT_N (R171, R183). -/
def State.faultBytes (s : State) : List Byte :=
  flagByte s.faults.alertSeen ++ flagByte s.faults.severeSeen ++ flagByte s.faults.multipleSevere
    ++ flagByte s.faultN

/-- READ STATUS: R171. R171 gives the port's status flags no layout: that they are sent as the one status byte of R178 is
the model's choice (DESIGN CHOICE, log entry 36). -/
def readStatus (p : Port) (_ : Unit) (s : State) : Reply :=
  let c := s.session
  ⟨s, .ok, [s.statusByte p] ++ be 1 (s.port p).queue.length ++ be 1 c.state.code
    ++ flagByte s.planner.hold.isSome ++ be 2 c.clock.day ++ be 3 c.clock.second ++ timeBytes c.clock
    ++ flagByte c.valid ++ be 1 s.watchCode ++ be 2 c.restartCount.toNat ++ be 1 c.restartCause.code
    ++ be 1 s.link.phase.code ++ be 1 s.link.pendingCount ++ flagByte s.link.planKey
    ++ flagByte s.link.readyRead ++ flagByte s.link.episode ++ be 1 s.planner.bank.val ++ s.faultBytes
    ++ be 1 (if s.starting then 1 else 2)⟩

/-- READ STATUS (R171). -/
def execReadStatus (p : Port) (params : List Byte) (s : State) : Host.Outcome State Fault Refusal :=
  .next (s.serve p 0x01#8 params (withParams (noParams? params) (readStatus p)))

/-- READ CAPABILITY: R172. The silicon revision is a free value (log entry 11). -/
def readCapability (_ : Unit) (s : State) : Reply :=
  ⟨s, .ok, be 1 24 ++ be 1 3 ++ be 1 32 ++ be 2 2048 ++ be 2 512 ++ be 1 64 ++ be 1 96 ++ be 1 16 ++ be 1 8
    ++ be 2 512 ++ be 1 (Config.siliconRevision.val + 1)⟩

/-- READ CAPABILITY (R172). -/
def execReadCapability (p : Port) (params : List Byte) (s : State) : Host.Outcome State Fault Refusal :=
  .next (s.serve p 0x04#8 params (withParams (noParams? params) readCapability))

/-! ### Notices -/

/-- A notice's kind, hall time and four context numbers (R174, R175). -/
def Notice.bytes (n : Notice) : List Byte := be 1 n.kind.code ++ timeBytes n.time ++ n.context.flatMap (be 2)

/-- READ NOTICE: R175. -/
def readNotice (p : Port) (_ : Unit) (s : State) : Reply :=
  let v := s.port p
  match v.queue with
  | [] => ⟨s, .empty, be 1 0⟩
  | n :: rest =>
    ⟨s.setPort p { v with queue := rest, lost := if rest.isEmpty then false else v.lost }, .ok,
      n.bytes ++ be 1 rest.length ++ flagByte v.lost⟩

/-- READ NOTICE (R175). -/
def execReadNotice (p : Port) (params : List Byte) (s : State) : Host.Outcome State Fault Refusal :=
  .next (s.serve p 0x02#8 params (withParams (noParams? params) (readNotice p)))

/-- SET NOTICE MASK (kinds): R176. The mask is kept in ascending code order, each kind once. -/
def setNoticeMask (p : Port) (kinds : List NoticeKind) (s : State) : Reply :=
  let mask := allNoticeKinds.filter fun k => k ∈ kinds
  ⟨s.setPort p { s.port p with mask := mask }, .ok, be 1 mask.length ++ mask.flatMap fun k => be 1 k.code⟩

/-- SET NOTICE MASK (R176). -/
def execSetNoticeMask (p : Port) (params : List Byte) (s : State) : Host.Outcome State Fault Refusal :=
  .next (s.serve p 0x03#8 params (withParams (maskParams? p params) (setNoticeMask p)))

/-! ### PORT RESET -/

/-- PORT RESET's effect (R177): the Operator port's own reset waits. -/
def State.takePortReset (s : State) (q : Port) : State :=
  match q with
  | .operator => { s with ports := { s.ports with selfReset := true } }
  | .booth | .hire => s.resetPort q

/-- PORT RESET (port): R177. The Operator port's own reset comes after its answer; that the answer then counts the notices
that stand in its queue when the command is handled, and reports no unread answer, is the model's choice (DESIGN CHOICE,
log entry 35). -/
def portReset (q : Port) (s : State) : Reply :=
  ⟨s.takePortReset q, .ok, be 1 (s.port q).queue.length ++ flagByte (s.port q).answerReady⟩

/-- PORT RESET (R177). -/
def execPortReset (p : Port) (params : List Byte) (s : State) : Host.Outcome State Fault Refusal :=
  .next (s.serve p 0x67#8 params (withParams (oneByte? port? params) portReset))

/-! ### READ FAULTS and CLEAR FAULTS -/

/-- The capture record: code, class, context and hall time, all 0 when there is none (R183). -/
def FaultCapture.recordBytes (c : FaultCapture) : List Byte :=
  match c.record with
  | none => be 1 0 ++ be 1 0 ++ be 2 0 ++ be 4 0
  | some r => be 1 r.kind.code ++ be 1 r.kind.classCode ++ be 2 r.context ++ timeBytes r.time

/-- READ FAULTS: R183. -/
def readFaults (_ : Unit) (s : State) : Reply := ⟨s, .ok, s.faultBytes ++ s.faults.recordBytes⟩

/-- READ FAULTS (R183). -/
def execReadFaults (p : Port) (params : List Byte) (s : State) : Host.Outcome State Fault Refusal :=
  .next (s.serve p 0x62#8 params (withParams (noParams? params) readFaults))

/-- The capture with the flags listed cleared (R184). -/
def FaultCapture.clear (c : FaultCapture) (flags : List FlagName) : FaultCapture :=
  let a := c.alertSeen && .alertSeen ∉ flags
  let b := c.severeSeen && .severeSeen ∉ flags
  let m := c.multipleSevere && .multipleSevere ∉ flags
  { c with
    alertSeen := a
    severeSeen := b
    multipleSevere := m
    record := if a || b || m then c.record else none }

/-- CLEAR FAULTS (flag names): R184. -/
def clearFaults (flags : List FlagName) (s : State) : Reply :=
  let c := s.faults.clear flags
  ⟨{ s with faults := c }, .ok, flagByte c.alertSeen ++ flagByte c.severeSeen ++ flagByte c.multipleSevere
    ++ c.recordBytes⟩

/-- CLEAR FAULTS (R184). -/
def execClearFaults (p : Port) (params : List Byte) (s : State) : Host.Outcome State Fault Refusal :=
  .next (s.serve p 0x63#8 params (withParams (clearParams? params) clearFaults))

end Sys2Proof.Machine
end

