-- ==== Sys2Proof/Machine/Derivation.lean ====
section
/-! DEFINITION. The Derivation Unit's pass (spec/03, R45 to R52): every program's level, every desk's effective feed
and relay status, the notices of what has broken or been restored, and the keys of what has changed. -/

namespace Sys2Proof.Machine

/-- What a program's live desk listens to: no live desk, floor, or a program. -/
inductive Hearing
  | off
  | floor
  | prog (q : Prog)
deriving DecidableEq, Repr

/-- What a desk with selected source `src` listens to. -/
def hearingOf (src : Source) : Hearing := if src = 0 then .floor else .prog src

/-- How the pass has resolved a program: its level, and the relay status of its live desk. -/
structure Resolution where
  level : Level
  relay : Relay
deriving DecidableEq, Repr

/-- The programs resolved so far. -/
abbrev Resolved := Table (Option Resolution) 32

/-- What program `p`'s live desk listens to (R46). -/
def State.hearing (s : State) (p : Prog) : Hearing :=
  match (s.program p).liveDesk with
  | none => .off
  | some d => hearingOf (s.desk d).selected

/-- R46: a program with no live desk is at level 0, one whose live desk selects floor at level 1. -/
def firstStep (hs : Table Hearing 32) : Resolved :=
  hs.map fun h =>
    match h with
    | .off => some ⟨.floorFallback, .ok⟩
    | .floor => some ⟨.direct, .ok⟩
    | .prog _ => none

/-- R47's table: how a program is resolved from the level of the program its live desk selects. -/
def hear (q : Level) : Resolution :=
  match q with
  | .floorFallback => ⟨.direct, .ok⟩
  | .direct => ⟨.relay, .ok⟩
  | .relay => ⟨.secondRelay, .ok⟩
  | .secondRelay => ⟨.direct, .broken .depth⟩

/-- One round of R47: every unresolved program whose selected program is resolved is resolved from it. -/
def roundOnce (hs : Table Hearing 32) (t : Resolved) : Resolved :=
  t.mapIdx fun p r =>
    match r with
    | some x => some x
    | none =>
      match hs.get p with
      | .prog q => (t.get q).map fun x => hear x.level
      | .off | .floor => none

/-- The rounds of R47, until one resolves nothing. Each round that changes anything resolves one of the 32 programs,
so `fuel` = 32 rounds are enough. -/
def rounds (hs : Table Hearing 32) (fuel : Nat) (t : Resolved) : Resolved :=
  match fuel with
  | 0 => t
  | k + 1 =>
    let t' := roundOnce hs t
    if t' = t then t else rounds hs k t'

/-- Whether the walk from `cur` along the selections comes back to `p` within `fuel` links (R48). -/
def comesBack (hs : Table Hearing 32) (p : Prog) (fuel : Nat) (cur : Prog) : Bool :=
  match fuel with
  | 0 => false
  | k + 1 =>
    match hs.get cur with
    | .prog q => q == p || comesBack hs p k q
    | .off | .floor => false

/-- R48: every unresolved program that lies on a loop is resolved at level 1, its live desk broken for LOOP. -/
def breakLoops (hs : Table Hearing 32) (t : Resolved) : Resolved :=
  t.mapIdx fun p r =>
    match r with
    | some x => some x
    | none => if comesBack hs p 32 p then some ⟨.direct, .broken .loop⟩ else none

/-- The whole of R46 to R48: the first step, the rounds, the loops, and the rounds resumed. -/
def resolve (hs : Table Hearing 32) : Resolved :=
  rounds hs 32 (breakLoops hs (rounds hs 32 (firstStep hs)))

/-- A program's level in a finished pass. -/
def Resolved.level (t : Resolved) (p : Prog) : Level :=
  match t.get p with
  | some r => r.level
  | none => .floorFallback

/-- R49: the relay status of a desk that is not LIVE, from the level of the program it selects. -/
def offAirRelay (t : Resolved) (src : Source) : Relay :=
  if src = 0 then .ok
  else if t.level src = .secondRelay then .broken .depth
  else .ok

/-- The effective feed that goes with a relay status: the selected source, or floor for a broken desk (R46 to
R49). -/
def feedOf (r : Relay) (src : Source) : Source :=
  match r with
  | .ok => src
  | .broken _ => 0

/-- The program on which a LIVE desk is the live desk (R6). -/
def State.deskProgram (s : State) (d : DeskId) : Option Prog :=
  match (s.desk d).state with
  | .live _ o => (s.boothConfig d.booth).outputs.get o
  | .vacant | .ready _ => none

/-- The relay status that a finished pass gives desk `d` (R46 to R49). -/
def State.passRelay (s : State) (t : Resolved) (d : DeskId) : Relay :=
  match (s.desk d).state with
  | .live _ _ =>
    match s.deskProgram d with
    | some p =>
      if (s.program p).liveDesk = some d then
        match t.get p with
        | some r => r.relay
        | none => (s.desk d).relay
      else (s.desk d).relay
    | none => (s.desk d).relay
  | .vacant | .ready _ => offAirRelay t (s.desk d).selected

/-- A relay status is OK (R50). -/
def Relay.isOk (r : Relay) : Bool :=
  match r with
  | .ok => true
  | .broken _ => false

/-- The notice, if any, of a desk's change of relay status (R50). A change of reason alone queues none. -/
def State.relayNotice (s : State) (d : DeskId) (old : Relay) (desk : Desk) : State :=
  match old, desk.relay with
  | .ok, .broken c =>
    s.notify .relayFallback (d.booth.val + 1) (d.pos.val + 1) c.code desk.selected.val
  | .broken _, .ok =>
    s.notify .relayRestored (d.booth.val + 1) (d.pos.val + 1) desk.selected.val desk.feed.val
  | .ok, .ok => s
  | .broken _, .broken _ => s

/-- The relay notices of a pass, in ascending order of booth and position (R50). -/
def State.relayNotices (s : State) (before after : Table Desk 72) : State :=
  (List.finRange 72).foldl
    (fun s i => s.relayNotice (deskAt i) (before.get i).relay (after.get i)) s

/-- The desk record that a finished pass leaves (R46 to R49). -/
def State.passDesk (s : State) (t : Resolved) (d : DeskId) (r : Desk) : Desk :=
  let relay := s.passRelay t d
  { r with relay := relay, feed := feedOf relay r.selected }

/-- The derivation pass (R45 to R51). It starts afresh from the present live desks and selected sources. -/
def State.derivationPass (s : State) : State :=
  let t := resolve (.ofFn s.hearing)
  let programs := s.programs.mapIdx fun p r => { r with derivedSource := r.liveDesk, level := t.level p }
  let desks := s.booth.desks.mapIdx fun i r => s.passDesk t (deskAt i) r
  let link := s.link
  let link : Link :=
    { link with
      programKeys := link.programKeys.mapIdx fun p k =>
        k || (programs.get p).derivedSource != (s.program p).derivedSource
          || (programs.get p).level != (s.program p).level
      deskKeys := link.deskKeys.mapIdx fun i k =>
        k || (desks.get i).feed != (s.booth.desks.get i).feed }
  let next := { s with programs := programs, booth := { s.booth with desks := desks } }
  (next.updateLink fun _ => link).relayNotices s.booth.desks desks

end Sys2Proof.Machine
end

