-- ==== Sys2Proof/Machine/Planner.lean ====
section
/-! DEFINITION. The Carrier Planner's allocation pass (spec/04, R72 to R77) and the pieces of configuration that the
program commands share. -/

namespace Sys2Proof.Machine

/-- While a pass runs: each program's quality of carriage, or none for one that is not carried (R73). -/
abbrev Carriage := Table (Option Quality) 32

/-- The slots a program takes: two at HIGH, one at STANDARD (R56). -/
def slotsOf (q : Option Quality) : Nat :=
  match q with
  | none => 0
  | some .standard => 1
  | some .high => 2

/-- The sum of the slots taken (R73). -/
def Carriage.total (c : Carriage) : Nat := (c.rows.map slotsOf).sum

/-- R73: the pass begins with every configured program at its desired quality. -/
def startCarriage (programs : Table Program 32) : Carriage :=
  programs.map fun r => if r.config.configured then some r.config.quality else none

/-- A class of R73's table: the priority of its candidates, and whether its step demotes or sheds. -/
structure PassClass where
  priority : Priority
  demotes : Bool
deriving DecidableEq, Repr

/-- The five classes of R73, first to last. -/
def passClasses : List PassClass :=
  [⟨.low, true⟩, ⟨.low, false⟩, ⟨.high, true⟩, ⟨.high, false⟩, ⟨.critical, true⟩]

/-- Whether program `p` is a candidate of a class (R73). -/
def isCandidate (programs : Table Program 32) (c : Carriage) (k : PassClass) (p : Prog) : Bool :=
  (programs.get p).config.priority = k.priority &&
    (if k.demotes then c.get p = some .high else (c.get p).isSome)

/-- R74: of two candidates, in ascending program number, the one with the smaller demand is taken, and of equal
demands the one with the higher number. -/
def better (programs : Table Program 32) (best : Option Prog) (p : Prog) : Option Prog :=
  match best with
  | none => some p
  | some b => if (programs.get p).demand ≤ (programs.get b).demand then some p else some b

/-- The candidate taken in a class, if it has one (R74). -/
def pick (programs : Table Program 32) (c : Carriage) (k : PassClass) : Option Prog :=
  ((List.finRange 32).filter (isCandidate programs c k)).foldl (better programs) none

/-- The step a class makes on the program taken (R73). -/
def PassClass.apply (k : PassClass) (c : Carriage) (p : Prog) : Carriage :=
  c.set p (if k.demotes then some .standard else none)

/-- One step, in the first class that has a candidate; none when no class has (R73). -/
def passStep (programs : Table Program 32) (classes : List PassClass) (c : Carriage) : Option Carriage :=
  match classes with
  | [] => none
  | k :: rest =>
    match pick programs c k with
    | some p => some (k.apply c p)
    | none => passStep programs rest c

/-- The steps of R73, until the total is within the budget or no class has a candidate (R75). Each step lowers the
total, at most 64, by one, so `fuel` = 64 steps are enough. -/
def passSteps (programs : Table Program 32) (budget : Nat) (fuel : Nat) (c : Carriage) : Carriage :=
  match fuel with
  | 0 => c
  | k + 1 =>
    if c.total ≤ budget then c
    else
      match passStep programs passClasses c with
      | none => c
      | some c' => passSteps programs budget k c'

/-- What the pass decides to carry. -/
def allocate (programs : Table Program 32) (budget : Nat) : Carriage :=
  passSteps programs budget 64 (startCarriage programs)

/-- R76: a program's radiation state from its configuration and the pass's result. -/
def radiationOf (c : ProgConfig) (q : Option Quality) : Radiation :=
  if c.configured then
    match q with
    | none => .shed
    | some q => if q = c.quality then .carried else .demoted
  else .unconfigured

/-- Whether a radiation state is CARRIED or DEMOTED (R77). -/
def Radiation.isCarried (r : Radiation) : Bool :=
  match r with
  | .carried | .demoted => true
  | .unconfigured | .shed => false

/-- A carried program's quality of carriage (R84). -/
def carriedQuality (r : Program) : Option Quality :=
  match r.radiation with
  | .carried => some r.config.quality
  | .demoted => some .standard
  | .unconfigured | .shed => none

/-- The carried programs with their qualities, in ascending program number (R84). -/
def carriedList (programs : Table Program 32) : List (Prog × Quality) :=
  (List.finRange 32).filterMap fun p => (carriedQuality (programs.get p)).map fun q => (p, q)

/-- R76 on one program: the notices of its change of state. The demand is the one the pass read. -/
def State.passNotice (s : State) (p : Prog) (old new : Radiation) (r : Program) (budget : Nat) : State :=
  if new = .shed ∧ old ≠ .shed then
    let s := s.notify .programShed p.val r.config.priority.code r.demand budget
    if 0 < r.demand then s.notify .presetShed p.val r.demand 0 0 else s
  else if old = .shed ∧ new.isCarried then
    s.notify .programRestored p.val (if new = .carried then 1 else 2) budget 0
  else s

/-- R76's notices, in ascending program number. -/
def State.passNotices (s : State) (before after : Table Program 32) (budget : Nat) : State :=
  (List.finRange 32).foldl
    (fun s p => s.passNotice p (before.get p).radiation (after.get p).radiation (after.get p) budget) s

/-- A program record as the pass leaves it: its radiation state, and its shed count one higher, wrapping, when it
enters SHED (R76). -/
def passProgram (c : Carriage) (p : Prog) (r : Program) : Program :=
  let new := radiationOf r.config (c.get p)
  { r with
    radiation := new
    shedCount := if new = .shed ∧ r.radiation ≠ .shed then r.shedCount + 1 else r.shedCount }

/-- The allocation pass (R73 to R77): it starts afresh from the desired qualities, the present budget and the
present demand counts. -/
def State.allocationPass (s : State) : State :=
  let budget := s.budget
  let c := allocate s.programs budget
  let programs := s.programs.mapIdx (passProgram c)
  let memo : PassMemo := ⟨s.planner.bank, budget, carriedList programs, programs.map (·.radiation)⟩
  let last := s.planner.lastPass
  let planChanged := memo.carried != last.carried || memo.bank != last.bank || memo.budget != last.budget
  let next := { s with
    programs := programs
    planner := { s.planner with slotsInUse := c.total, lastPass := memo } }
  let next := next.updateLink fun k =>
    { k with
      planKey := k.planKey || planChanged
      programKeys := k.programKeys.mapIdx fun p b => b || memo.states.get p != last.states.get p }
  let next := next.passNotices s.programs programs budget
  if budget < c.total then next.raiseFault .budgetDeficit budget else next

/-! ### Outputs and the shadow -/

/-- Whether a booth's outputs name program `p`. -/
def Outputs.names (x : Outputs) (p : Prog) : Bool := x.a == some p || x.b == some p

/-- R62 step 2 on one booth: the program leaves the outputs, output B moving to output A where A was cleared. -/
def Outputs.clear (x : Outputs) (p : Prog) : Outputs :=
  if x.a = some p then ⟨if x.b = some p then none else x.b, none⟩
  else if x.b = some p then ⟨x.a, none⟩
  else x

/-- R4: the selected source of a desk after its booth's outputs have become `x`. -/
def Outputs.revert (x : Outputs) (src : Source) : Source := if src ≠ 0 ∧ x.names src then 0 else src

/-- Every desk of booth `b` whose selected source is now one of the booth's outputs selects floor (R4). -/
def State.revertBooth (s : State) (b : Fin 24) : State :=
  { s with booth := { s.booth with desks := s.booth.desks.mapIdx fun i r =>
      if (deskAt i).booth = b then { r with selected := (s.boothConfig b).outputs.revert r.selected } else r } }

/-- A program's configuration as written to the committed record or to the shadow (R59): the value that step 2 of
R59 compares with. -/
def State.plannedConfig (s : State) (p : Prog) : ProgConfig :=
  match s.planner.hold with
  | some h => h.programs.get p
  | none => (s.program p).config

/-- A booth's outputs as the committed record or the shadow has them (R3). -/
def State.plannedOutputs (s : State) (b : Fin 24) : Outputs :=
  match s.planner.hold with
  | some h => h.outputs.get b
  | none => (s.boothConfig b).outputs

/-- The shadow that PLAN HOLD makes: a copy of the committed configuration (R64). -/
def State.makeShadow (s : State) : Shadow :=
  ⟨s.programs.map (·.config), s.booth.configs.map (·.outputs)⟩

/-- The plan hold set, changed or ended; volatile (R64). -/
def State.setHold (s : State) (h : Option Shadow) : State := { s with planner := { s.planner with hold := h } }

end Sys2Proof.Machine
end

