-- ==== Sys2Proof/Machine/Timebase.lean ====
section
/-! DEFINITION. The internal timebase (spec/00, R1): the deadlines and waits that are measured on it, when each of them has
been reached, and what happens when no command waits: a send opportunity of the Distribution Link that stands, and else a
request that waits in a port's slot, and else a millisecond that passes. -/

namespace Sys2Proof.Machine

/-! ### The waits -/

/-- The length of the health-line debounce (R70). -/
def debounceWait : Nat := 500

/-- The length of the stall watch (R88). -/
def stallWait : Nat := 2000

/-- The length of the tick watch (R158). -/
def tickWait : Nat := 3000

/-- The longest that a start-up check takes (R186). -/
def checkWait : Nat := 300

/-- The tick watch runs: main power is present, no power-on start-up check is running, and the state is TICKING
(R155, R158). While RESET_N is asserted over a power-on start-up it does not run: DESIGN CHOICE, log entry 43. -/
def State.watchRuns (s : State) : Bool := s.powered && s.startup != .checking && !s.session.tickLost

/-! ### What has been reached -/

/-- Booth `b`'s handover request, when its deadline has been reached (R25, R30). -/
def State.handoverDue (s : State) (b : Fin 24) : Option HandoverRequest :=
  if s.powered then (s.request b).filter fun r => s.reached r.deadline else none

/-- The stocktake runs and its deadline has been reached (R110). -/
def State.stocktakeDue (s : State) : Bool :=
  s.powered && s.registry.stocktake.running && s.registry.stocktake.deadline.any s.reached

/-- The candidate that has been held for 500 ms, while the debounce runs (R70, R71). -/
def State.debounceDue (s : State) : Option (Fin 8) :=
  if s.operating then (s.planner.candidate.filter fun c => s.reached (c.2 + debounceWait)).map (·.1) else none

/-- The tick watch runs and has reached 3000 ms (R158). -/
def State.tickWatchDue (s : State) : Bool := s.watchRuns && s.reached (s.session.tickSince + tickWait)

/-- The stall watch has reached 2000 ms and no episode is open (R88). -/
def State.stallDue (s : State) : Bool :=
  s.powered && !s.link.episode && s.link.stallSince.any fun t => s.reached (t + stallWait)

/-- The power-on start-up check runs and has come to 300 ms, within which it completes (R186). That it completes then when
nothing has completed it before is the model's choice: DESIGN CHOICE, log entry 44. -/
def State.checkDue (s : State) : Bool :=
  s.operating && s.startup == .checking && s.reached (s.checkSince + checkWait)

/-- The events that the present count brings: those that are due, in the order in which they are taken. The manual
gives no order among waits that end at one count: DESIGN CHOICE, log entry 3. -/
def State.due (s : State) : List Instr :=
  (if s.checkDue then [.startupCheckComplete] else [])
    ++ ((List.finRange 24).filter fun b => (s.handoverDue b).isSome).map .handoverExpiry
    ++ (if s.stocktakeDue then [.stocktakeExpiry] else [])
    ++ (if s.debounceDue.isSome then [.debounceExpiry] else [])
    ++ (if s.tickWatchDue then [.tickWatchExpiry] else [])
    ++ (if s.stallDue then [.stallWatchExpiry] else [])

/-- An opportunity to send stands: some event before has left it, a key set on an IDLE link with READY asserted or the
end of a start-up (R82, R90). -/
def State.sendDue (s : State) : Bool := s.powered && s.link.opportunity

/-- The requests that wait in the ports' slots, each with its port. -/
def State.waiting (s : State) : List (Port × Request) :=
  [Port.booth, .hire, .operator].filterMap fun p => (s.port p).request.map fun r => (p, r)

/-- The event that hands a waiting request to its owning block (R167, R169): the one of the lowest turn, which was taken
first. None while RESET_N is asserted or main power is off (R188). -/
def State.nextHandling (s : State) : Option Instr :=
  if s.operating then
    (s.waiting.find? fun x => s.waiting.all fun y => x.2.turn ≤ y.2.turn).map fun x => commandOf x.1 x.2.code x.2.params
  else none

/-- What happens when no command waits. A send opportunity that stands follows at once (R82, R88, R90): its event is put in
the queue and no time passes. With none, a request that waits in a port's slot is handed to its owning block (R167, R169):
the event of its command is put in the queue and no time passes. Otherwise a millisecond passes (R1): the timebase counts,
and the events that its count brings are put in the queue, to be taken before the next one. DESIGN CHOICE, log entries 2,
3, 12 and 45. -/
def State.idle (s : State) : State :=
  if s.sendDue then { s with pending := [.sendOpportunity] }
  else
    match s.nextHandling with
    | some c => { s with pending := [c] }
    | none =>
      let t := s.countMs
      { t with pending := t.due }

end Sys2Proof.Machine
end

