-- ==== Sys2Proof/Machine/Booth.lean ====
section
/-! DEFINITION. The Booth Section (spec/01, spec/02, spec/03): LOGIN, LOGOUT, MIC ON, MIC OFF, CANCEL HANDOVER, SELECT
SOURCE, the expiry of a handover request, the booth reads, and the desks' part of a tick and of a session's
leaving LIVE. -/

namespace Sys2Proof.Machine

/-- A booth's number (01, introduction). -/
def boothNo (b : Fin 24) : Nat := b.val + 1

/-- A position's number. -/
def posNo (q : Fin 3) : Nat := q.val + 1

/-- The interpreter ID at a desk that is not VACANT (R5). -/
def DeskState.id? (d : DeskState) : Option Nat :=
  match d with
  | .vacant => none
  | .ready id => some id
  | .live id _ => some id

/-- Whether a desk is LIVE (R5). -/
def DeskState.isLive (d : DeskState) : Bool :=
  match d with
  | .live _ _ => true
  | .vacant | .ready _ => false

/-- The position of booth `b`'s LIVE desk, if it has one (R5). -/
def State.livePos (s : State) (b : Fin 24) : Option (Fin 3) :=
  (List.finRange 3).find? fun q => (s.desk ⟨b, q⟩).state.isLive

/-- Desk `d`'s state set. -/
def State.setDeskState (s : State) (d : DeskId) (x : DeskState) : State :=
  s.modifyDesk d fun r => { r with state := x }

/-- Program `p` loses its live desk for `cause` (R6). -/
def State.loseLive (s : State) (p : Prog) (cause : OffAirCause) : State :=
  s.modifyProgram p fun r => { r with liveDesk := none, lastCause := cause }

/-! ### Going on and off the air -/

/-- A cut (R16): the desk becomes READY, its program loses it for `cause`, and CUT is queued. What the cut does to a
handover request is the caller's (R33). -/
def State.cut (s : State) (d : DeskId) (cause : OffAirCause) : State :=
  match (s.desk d).state, s.deskProgram d with
  | .live id _, some p =>
    ((s.setDeskState d (.ready id)).loseLive p cause).notify .cut (boothNo d.booth) (posNo d.pos) p.val
      cause.code
  | .live id _, none => s.setDeskState d (.ready id)
  | .vacant, _ | .ready _, _ => s

/-- A drop of booth `b`'s handover request (R33). -/
def State.dropRequest (s : State) (b : Fin 24) (cause : DropCause) : State :=
  match s.request b with
  | none => s
  | some r =>
    (s.setRequest b none).notify .handoverLapsed (boothNo b) (posNo r.requester) (posNo r.liveDesk) cause.code

/-- A cut with cause OVERRIDDEN, with the drop of the request whose live desk is cut (R12, R16, R33). -/
def State.overrideCut (s : State) (d : DeskId) : State :=
  let s := s.cut d .overridden
  match s.request d.booth with
  | some r => if r.liveDesk = d.pos then s.dropRequest d.booth .overridden else s
  | none => s

/-- R15 steps 2 and 3: the desk goes LIVE on output `o` and becomes the live desk of the program it names; its
interpreter's turns today rise by one, saturating; its turn seconds and turn-due flag are reset. -/
def State.goLive (s : State) (d : DeskId) (o : Output) : State :=
  match (s.desk d).state.id?, (s.boothConfig d.booth).outputs.get o with
  | some id, some p =>
    let s := s.modifyDesk d fun r => { r with state := .live id o, turnSeconds := 0, turnDue := false }
    let s := s.modifyProgram p fun r => { r with liveDesk := some d }
    s.modifyInterpreter id fun e => { e with turns := min 65535 (e.turns + 1) }
  | _, _ => s

/-- The end of a handover by completion (R28 step 4, R30 step 5): the request is removed, HANDOVER_DONE queued. -/
def State.finishHandover (s : State) (b : Fin 24) (outgoing incoming : Fin 3) (forced : Nat) : State :=
  (s.setRequest b none).notify .handoverDone (boothNo b) (posNo outgoing) (posNo incoming) forced

/-- The end of a handover whose engagement re-check fails (R29, R30). -/
def State.failHandover (s : State) (b : Fin 24) (requester : Fin 3) (target : Prog) (engaging : DeskId) : State :=
  (s.setRequest b none).notify .handoverFailed (boothNo b) (posNo requester) target.val
    (boothNo engaging.booth)

/-- The live desk that program `target` has, when it is not the program `held` (the engagement check of R29). -/
def State.engaging (s : State) (held target : Prog) : Option DeskId :=
  if target = held then none else (s.program target).liveDesk

/-- R29's completion when the target program is free, or is taken from another booth's desk under OVERRIDE. -/
def State.completeHandover (s : State) (b : Fin 24) (outgoing : Fin 3) (r : HandoverRequest)
    (engaging : Option DeskId) (forced : Nat) : State :=
  let s :=
    match engaging with
    | some e => s.overrideCut e
    | none => s
  let s := s.goLive ⟨b, r.requester⟩ r.output
  s.finishHandover b outgoing r.requester forced

/-- A release by the LIVE desk `d` (R17, R28, R29), without the derivation pass that ends its event. -/
def State.release (s : State) (d : DeskId) : State :=
  match (s.desk d).state, s.deskProgram d with
  | .live id _, some held =>
    let s := s.setDeskState d (.ready id)
    match s.request d.booth with
    | none => s.loseLive held .released
    | some r =>
      match (s.boothConfig d.booth).outputs.get r.output with
      | none => (s.loseLive held .released).setRequest d.booth none
      | some target =>
        match s.engaging held target with
        | some e =>
          match (s.program target).config.engagement with
          | .interlock => (s.loseLive held .released).failHandover d.booth r.requester target e
          | .override => (s.loseLive held .handedOver).completeHandover d.booth d.pos r (some e) 0
        | none => (s.loseLive held .handedOver).completeHandover d.booth d.pos r none 0
  | .live id _, none => s.setDeskState d (.ready id)
  | .vacant, _ | .ready _, _ => s

/-- The forced handover of R30, with its derivation pass; a failed re-check moves no link and runs none. -/
def State.forceHandover (s : State) (b : Fin 24) (r : HandoverRequest) : State :=
  let d : DeskId := ⟨b, r.liveDesk⟩
  match s.deskProgram d, (s.boothConfig b).outputs.get r.output with
  | some held, some target =>
    match s.engaging held target, (s.program target).config.engagement with
    | some e, .interlock => s.failHandover b r.requester target e
    | e, _ => ((s.cut d .forcedHandover).completeHandover b r.liveDesk r e 1).derivationPass
  | _, _ => s.setRequest b none

/-- HANDOVER_EXPIRY (R30, R31): the timebase has reached the deadline of the request that booth `b` holds, and the
expiry policy as it stands decides. Before the deadline, and where the booth holds no request, it is no event (log entry
14). -/
def execHandoverExpiry (b : Fin 24) (s : State) : Host.Outcome State Fault Refusal :=
  .next <|
    match s.handoverDue b with
    | some r =>
      match (s.boothConfig b).policy with
      | .force => s.forceHandover b r
      | .lapse => s.dropRequest b .expired
    | none => s

/-! ### LOGIN and LOGOUT -/

/-- The answer fields of a desk's selected source, effective feed and relay status (R9, R43). -/
def State.feedBytes (s : State) (d : DeskId) : List Byte :=
  be 1 (s.desk d).selected.val ++ be 1 (s.desk d).feed.val ++ relayBytes (s.desk d).relay

/-- LOGIN (desk, ID): R9. -/
def login (d : DeskId) (id : Nat) (s : State) : Reply :=
  if (s.desk d).state ≠ .vacant then s.refuse .inUse
  else if ((s.interpreter id).bind (·.desk)).isSome then s.refuse .inUse
  else if (s.interpreter id).isNone ∧ 96 ≤ s.booth.interpreters.length then s.refuse .tableFull
  else
    let t := if (s.interpreter id).isNone then
        s.setInterpreters (s.booth.interpreters ++ [⟨id, some d, 0, 0, 0, 0⟩])
      else s.modifyInterpreter id fun e => { e with desk := some d }
    let t := t.modifyDesk d fun r => { r with state := .ready id, turnSeconds := 0, turnDue := false }
    ⟨t, .ok, t.feedBytes d⟩

/-- LOGIN (R9). -/
def execLogin (p : Port) (params : List Byte) (s : State) : Host.Outcome State Fault Refusal :=
  .next (s.serve p 0x10#8 params (withParams (loginParams? params) fun a => login a.1 a.2))

/-- The desk becomes VACANT and its interpreter's entry loses its current desk (R10). -/
def State.vacate (s : State) (d : DeskId) : State :=
  match (s.desk d).state.id? with
  | none => s
  | some id => (s.setDeskState d .vacant).modifyInterpreter id fun e => { e with desk := none }

/-- Whether desk `d` is the requester of its booth's handover request (R10, R18). -/
def State.isRequester (s : State) (d : DeskId) : Bool :=
  match s.request d.booth with
  | some r => r.requester = d.pos
  | none => false

/-- LOGOUT (desk): R10. Its OK carries no field (DEDUCED, log entry 22). -/
def logout (d : DeskId) (s : State) : Reply :=
  match (s.desk d).state with
  | .vacant => ⟨s, .ok, []⟩
  | .ready _ =>
    let s := if s.isRequester d then s.dropRequest d.booth .logout else s
    ⟨s.vacate d, .ok, []⟩
  | .live _ _ => ⟨((s.release d).vacate d).derivationPass, .ok, []⟩

/-- LOGOUT (R10). -/
def execLogout (p : Port) (params : List Byte) (s : State) : Host.Outcome State Fault Refusal :=
  .next (s.serve p 0x11#8 params (withParams (deskParam? params) logout))

/-! ### MIC ON and MIC OFF -/

/-- The answer of a MIC ON that puts a desk on the air or switches it (R15). The live output is sent without a presence
byte, since it is present in every such answer (DESIGN CHOICE, log entry 39). -/
def State.micAnswer (s : State) (d : DeskId) (o : Output) (target : Prog) : Reply :=
  ⟨s, .ok, be 1 (s.desk d).state.code ++ be 1 o.code ++ be 1 target.val
    ++ be 1 (s.program target).level.code⟩

/-- The answer PENDING with a request's fields and the milliseconds that remain (R26, R27). -/
def State.pendingAnswer (s : State) (r : HandoverRequest) : Reply :=
  ⟨s, .pending, be 1 (posNo r.requester) ++ be 1 r.output.code ++ be 1 (posNo r.liveDesk)
    ++ be 3 (r.deadline - s.now)⟩

/-- A handover request is created (R25, R26). -/
def State.askHandover (s : State) (d : DeskId) (o : Output) (livePos : Fin 3) : Reply :=
  let r : HandoverRequest := ⟨d.pos, o, s.now + (s.boothConfig d.booth).window * 1000, livePos⟩
  let s := (s.setRequest d.booth (some r)).notify .handoverAsked (boothNo d.booth) (posNo d.pos)
    (posNo livePos) o.code
  s.pendingAnswer r

/-- An output switch (R14): the program the desk held records SWITCHED, and the turn goes on. -/
def State.switchOutput (s : State) (d : DeskId) (o : Output) (target : Prog) : State :=
  match (s.desk d).state, s.deskProgram d with
  | .live id _, some held =>
    ((s.loseLive held .switched).setDeskState d (.live id o)).modifyProgram target fun r =>
      { r with liveDesk := some d }
  | _, _ => s

/-- The other booth's desk that the engagement check finds on the target program (R12). -/
def State.otherBoothDesk (s : State) (d : DeskId) (target : Prog) : Option DeskId :=
  match (s.program target).liveDesk with
  | some e => if e.booth = d.booth then none else some e
  | none => none

/-- The position of another LIVE desk of the requesting desk's booth (R13). -/
def State.otherLivePos (s : State) (d : DeskId) : Option (Fin 3) :=
  (List.finRange 3).find? fun q => q ≠ d.pos && (s.desk ⟨d.booth, q⟩).state.isLive

/-- The cut that the engagement check marked, carried out (R12, R15 step 1). -/
def State.cutMarked (s : State) (marked : Option DeskId) : State :=
  match marked with
  | some e => s.overrideCut e
  | none => s

/-- The sixth and seventh checks of MIC ON and its effect (R13, R14, R15). -/
def takeAir (d : DeskId) (o : Output) (target : Prog) (marked : Option DeskId) (s : State) : Reply :=
  match s.otherLivePos d with
  | some q =>
    match s.request d.booth with
    | some r => if r.requester = d.pos then s.pendingAnswer r else s.refuse .busy
    | none =>
      match (s.boothConfig d.booth).mode with
      | .immediate =>
        ((((s.cut ⟨d.booth, q⟩ .handedOver).cutMarked marked).goLive d o).derivationPass).micAnswer d o target
      | .negotiated => s.askHandover d o q
  | none =>
    if (s.desk d).state.isLive then
      (((s.cutMarked marked).switchOutput d o target).derivationPass).micAnswer d o target
    else (((s.cutMarked marked).goLive d o).derivationPass).micAnswer d o target

/-- MIC ON (desk, output): the first five checks (R11, R12), then R13 to R15. The OK of the fourth check carries no field
(DEDUCED, log entry 22). -/
def micOn (d : DeskId) (o : Output) (s : State) : Reply :=
  if s.session.state ≠ .live then s.refuse .notLive
  else
    match (s.desk d).state with
    | .vacant => s.refuse .noInterpreter
    | x =>
      match (s.boothConfig d.booth).outputs.get o with
      | none => s.refuse .notConfigured
      | some target =>
        if x = .live (x.id?.getD 0) o then ⟨s, .ok, []⟩
        else
          match s.otherBoothDesk d target with
          | none => takeAir d o target none s
          | some e =>
            match (s.program target).config.engagement with
            | .interlock => s.refuse .engaged
            | .override => takeAir d o target (some e) s

/-- MIC ON (R11 to R15). -/
def execMicOn (p : Port) (params : List Byte) (s : State) : Host.Outcome State Fault Refusal :=
  .next (s.serve p 0x12#8 params (withParams (micOnParams? params) fun a => micOn a.1 a.2))

/-- MIC OFF (desk): R18. Its OK carries no field (DEDUCED, log entry 22). -/
def micOff (d : DeskId) (s : State) : Reply :=
  match (s.desk d).state with
  | .live _ _ => ⟨(s.release d).derivationPass, .ok, []⟩
  | .ready _ => if s.isRequester d then ⟨s.dropRequest d.booth .cancelled, .ok, []⟩ else ⟨s, .ok, []⟩
  | .vacant => ⟨s, .ok, []⟩

/-- MIC OFF (R18). -/
def execMicOff (p : Port) (params : List Byte) (s : State) : Host.Outcome State Fault Refusal :=
  .next (s.serve p 0x13#8 params (withParams (deskParam? params) micOff))

/-- CANCEL HANDOVER (booth): R32. -/
def cancelHandover (b : Fin 24) (s : State) : Reply :=
  match s.request b with
  | none => s.refuse .notActive
  | some r => ⟨s.dropRequest b .cancelled, .ok, be 1 (posNo r.requester) ++ be 1 r.output.code⟩

/-- CANCEL HANDOVER (R32). -/
def execCancelHandover (p : Port) (params : List Byte) (s : State) : Host.Outcome State Fault Refusal :=
  .next (s.serve p 0x14#8 params (withParams (oneByte? booth? params) cancelHandover))

/-! ### SELECT SOURCE -/

/-- The answer to a successful SELECT SOURCE (R43). The program and its level are two optional fields, each with its own
presence byte (DESIGN CHOICE, log entry 40). -/
def State.selectAnswer (s : State) (d : DeskId) : Reply :=
  let live := s.deskProgram d
  ⟨s, .ok, s.feedBytes d ++ optProgBytes live
    ++ optBytes 1 (live.map fun p => (s.program p).level.code)⟩

/-- SELECT SOURCE (desk, source): R42, R43. -/
def selectSource (d : DeskId) (src : Source) (s : State) : Reply :=
  if (s.desk d).state = .vacant then s.refuse .noInterpreter
  else if src ≠ 0 ∧ (s.boothConfig d.booth).outputs.names src then s.refuse .ownOutput
  else if src ≠ 0 ∧ ¬ (s.program src).config.configured then s.refuse .notConfigured
  else ((s.modifyDesk d fun r => { r with selected := src }).derivationPass).selectAnswer d

/-- SELECT SOURCE (R42). -/
def execSelectSource (p : Port) (params : List Byte) (s : State) : Host.Outcome State Fault Refusal :=
  .next (s.serve p 0x15#8 params (withParams (selectParams? params) fun a => selectSource a.1 a.2))

/-! ### Reads -/

/-- READ DESK (booth, position): R8, with the last-off-air cause that R170 has it carry. The cause is a field of a program
(R6), so it is that of the desk's program; it comes last, and is absent with the program (DESIGN CHOICE, log entry 18). -/
def readDesk (d : DeskId) (s : State) : Reply :=
  let r := s.desk d
  let live := s.deskProgram d
  let out : Option Nat := match r.state with | .live _ o => some o.code | .vacant | .ready _ => none
  ⟨s, .ok, be 1 r.state.code ++ optBytes 2 r.state.id? ++ optBytes 1 out ++ be 1 r.selected.val
    ++ be 2 r.turnSeconds ++ flagByte r.turnDue ++ be 1 r.feed.val ++ relayBytes r.relay
    ++ optProgBytes live ++ optBytes 1 (live.map fun p => (s.program p).lastCause.code)⟩

/-- READ DESK (R8). -/
def execReadDesk (p : Port) (params : List Byte) (s : State) : Host.Outcome State Fault Refusal :=
  .next (s.serve p 0x16#8 params (withParams (deskParam? params) readDesk))

/-- A booth's six fields as an answer carries them (R2, R3). -/
def boothBytes (o : Outputs) (c : BoothConfig) : List Byte :=
  optProgBytes o.a ++ optProgBytes o.b ++ be 1 c.mode.code ++ be 1 c.window ++ be 1 c.policy.code
    ++ be 1 c.turnLimit

/-- READ BOOTH (booth): R8. -/
def readBooth (b : Fin 24) (s : State) : Reply :=
  let c := s.boothConfig b
  ⟨s, .ok, boothBytes c.outputs c ++ optBytes 1 ((s.livePos b).map posNo)
    ++ flagByte (s.request b).isSome⟩

/-- READ BOOTH (R8). -/
def execReadBooth (p : Port) (params : List Byte) (s : State) : Host.Outcome State Fault Refusal :=
  .next (s.serve p 0x17#8 params (withParams (oneByte? booth? params) readBooth))

/-- The fields of an interpreter entry and the number of entries (R7, R8). -/
def State.interpreterAnswer (s : State) (e : Interpreter) : Reply :=
  ⟨s, .ok, be 2 e.id ++ optDeskBytes e.desk ++ be 3 e.onAir ++ be 2 e.turns ++ be 3 e.prevOnAir
    ++ be 2 e.prevTurns ++ be 1 s.booth.interpreters.length⟩

/-- READ INTERPRETER (selector, value): R8. Answered UNKNOWN or EMPTY it carries no field, not even the number of entries:
R8 leaves this open, and it is the model's choice (DESIGN CHOICE, log entry 31). -/
def readInterpreter (sel : Nat ⊕ Nat) (s : State) : Reply :=
  match sel with
  | .inl id =>
    match s.interpreter id with
    | some e => s.interpreterAnswer e
    | none => s.refuse .unknown
  | .inr place =>
    match s.booth.interpreters[place - 1]? with
    | some e => s.interpreterAnswer e
    | none => s.refuse .empty

/-- READ INTERPRETER (R8). Its MALFORMED refusal carries no number of entries: the model's choice (DESIGN CHOICE, log entry 46). -/
def execReadInterpreter (p : Port) (params : List Byte) (s : State) : Host.Outcome State Fault Refusal :=
  .next (s.serve p 0x64#8 params (withParams (interpreterParams? params) readInterpreter))

/-! ### The desks at a tick and when the session leaves LIVE -/

/-- A LIVE desk counts the tick (R19). -/
def Desk.countTick (r : Desk) : Desk :=
  if r.state.isLive then { r with turnSeconds := min 65535 (r.turnSeconds + 1) } else r

/-- Whether interpreter `id` is at a LIVE desk. -/
def State.onAirNow (s : State) (id : Nat) : Bool :=
  s.booth.desks.rows.any fun r => r.state.isLive && r.state.id? == some id

/-- R19: the turn seconds of every LIVE desk and its interpreter's on-air seconds today rise by one, saturating. -/
def State.countAirTime (s : State) : State :=
  let t := { s with booth := { s.booth with desks := s.booth.desks.map Desk.countTick } }
  t.setInterpreters (s.booth.interpreters.map fun e =>
    if s.onAirNow e.id then { e with onAir := min 16777215 (e.onAir + 1) } else e)

/-- R20 on one desk: a LIVE desk whose flag is clear and whose turn seconds have reached its booth's limit. -/
def State.checkTurn (s : State) (d : DeskId) : State :=
  let r := s.desk d
  match r.state with
  | .live id _ =>
    if ¬ r.turnDue ∧ (s.boothConfig d.booth).turnLimit * 60 ≤ r.turnSeconds then
      (s.modifyDesk d fun x => { x with turnDue := true }).notify .turnDue (boothNo d.booth) (posNo d.pos) id
        (r.turnSeconds / 60)
    else s
  | .vacant | .ready _ => s

/-- R20, in ascending order of booth. -/
def State.checkTurns (s : State) : State :=
  (List.finRange 72).foldl (fun s i => s.checkTurn (deskAt i)) s

/-- The Booth Section's work at a tick taken while the session is LIVE (R19, R20). -/
def State.boothTick (s : State) : State :=
  if s.session.state = .live then s.countAirTime.checkTurns else s

/-- R21 and R34: every request is dropped with cause SESSION and every LIVE desk cut with cause SESSION; the CUT
notices come first, then the HANDOVER_LAPSED notices, each in ascending order of booth; one derivation pass ends
the event. -/
def State.leaveLive (s : State) : State :=
  let requests := s.booth.requests
  let s := { s with booth := { s.booth with requests := .replicate 24 none } }
  let s := (List.finRange 72).foldl (fun s i => s.cut (deskAt i) .session) s
  let s := (List.finRange 24).foldl (fun s b =>
    match requests.get b with
    | some r => s.notify .handoverLapsed (boothNo b) (posNo r.requester) (posNo r.liveDesk)
        DropCause.session.code
    | none => s) s
  s.derivationPass

end Sys2Proof.Machine
end

