-- ==== Sys2Proof/Machine/Programs.lean ====
section
/-! DEFINITION. The configuration of programs and booths, the plan hold, the health lines and the bank table (spec/04;
SET BOOTH is spec/01, R3 and R4). -/

namespace Sys2Proof.Machine

/-! ### READ PROGRAM -/

/-- A program's five configuration fields as an answer carries them (R59, R68). -/
def ProgConfig.bytes (c : ProgConfig) : List Byte :=
  be 1 (configuredCode c.configured) ++ labelBytes c.label ++ be 1 c.priority.code ++ be 1 c.quality.code
    ++ be 1 c.engagement.code

/-- READ PROGRAM (program): R58, every field with its committed value. -/
def readProgram (p : Prog) (s : State) : Reply :=
  let r := s.program p
  ⟨s, .ok, r.config.bytes ++ be 1 r.radiation.code ++ be 2 r.demand ++ be 4 r.outage.toNat
    ++ be 1 r.shedCount.toNat ++ be 4 r.outageBase.toNat ++ optDeskBytes r.liveDesk ++ be 1 r.lastCause.code ++ optDeskBytes r.derivedSource ++ be 1 r.level.code⟩

/-- READ PROGRAM (R58). -/
def execReadProgram (p : Port) (params : List Byte) (s : State) : Host.Outcome State Fault Refusal :=
  .next (s.serve p 0x18#8 params (withParams (oneByte? prog? params) readProgram))

/-! ### SET BOOTH -/

/-- A booth's configuration with its two output fields replaced. -/
def BoothConfig.withOutputs (c : BoothConfig) (x : Outputs) : BoothConfig := { c with outputs := x }

/-- Whether an output of R3 is none or names a configured program, in the committed table or the shadow. -/
def State.outputConfigured (s : State) (o : Option Prog) : Bool :=
  match o with
  | none => true
  | some p => (s.plannedConfig p).configured

/-- The configuration that SET BOOTH stores, its window and turn limit clamped (R3 step 4). -/
def BoothArgs.stored (a : BoothArgs) : BoothConfig :=
  ⟨a.outputs, a.mode, clamp 5 120 a.window, a.policy, clamp 10 90 a.turnLimit⟩

/-- Whether the window or the turn limit of a SET BOOTH was outside its range (R3 step 4). -/
def BoothArgs.clamped (a : BoothArgs) : Bool := a.stored.window != a.window || a.stored.turnLimit != a.turnLimit

/-- The committed outputs of booth `b` changed: its desks' selections of its own outputs revert to floor and one
derivation pass runs (R4). -/
def State.outputsChanged (s : State) (b : Fin 24) : State := (s.revertBooth b).derivationPass

/-- R3 step 4: the record is written, its outputs to the shadow while a hold is active and its other fields to the
committed record; a change of committed outputs has R4's effect. -/
def State.writeBooth (s : State) (b : Fin 24) (c : BoothConfig) : State :=
  let old := s.boothConfig b
  match s.planner.hold with
  | some h =>
    (s.setBoothConfig b (c.withOutputs old.outputs)).setHold
      (some { h with outputs := h.outputs.set b c.outputs })
  | none =>
    let s := s.setBoothConfig b c
    if c.outputs = old.outputs then s else s.outputsChanged b

/-- SET BOOTH (booth, outputs, mode, window, policy, turn limit): R3. -/
def setBooth (a : BoothArgs) (s : State) : Reply :=
  if s.session.state ≠ .setup ∧ a.outputs ≠ s.plannedOutputs a.booth then s.refuse .locked
  else if ¬ (s.outputConfigured a.outputs.a ∧ s.outputConfigured a.outputs.b) then s.refuse .notConfigured
  else ⟨s.writeBooth a.booth a.stored, if a.clamped then .okClamped else .ok, boothBytes a.outputs a.stored⟩

/-- SET BOOTH (R3). -/
def execSetBooth (p : Port) (params : List Byte) (s : State) : Host.Outcome State Fault Refusal :=
  .next (s.serve p 0x54#8 params (withParams (setBoothParams? params) setBooth))

/-! ### SET PROGRAM -/

/-- The configuration that a SET PROGRAM stores: Floor's four fixed values replace those given (R57, R59 step 4). -/
def storedConfig (p : Prog) (c : ProgConfig) : ProgConfig :=
  if p = 0 then { ProgConfig.default 0 with label := c.label } else c

/-- R62 step 3: every desk that selects an unconfigured program selects floor. -/
def State.dropSelections (s : State) : State :=
  { s with booth := { s.booth with desks := s.booth.desks.map fun r =>
      if r.selected ≠ 0 ∧ ¬ (s.program r.selected).config.configured then { r with selected := 0 } else r } }

/-- R62 step 2: program `p` leaves every booth's committed outputs; retained group 6. -/
def State.clearOutputs (s : State) (p : Prog) : State :=
  ({ s with booth := { s.booth with
      configs := s.booth.configs.map fun (c : BoothConfig) => c.withOutputs (c.outputs.clear p) } }).rewrite 5

/-- R62 steps 1 to 4: program `p`, its configured field written no, leaves the hall. -/
def State.unconfigure (s : State) (p : Prog) : State :=
  let s := s.modifyProgram p fun r => { r with radiation := .unconfigured }
  ((s.clearOutputs p).dropSelections).derivationPass

/-- Whether a change of configuration runs the allocation pass (R60). -/
def ProgConfig.planDiffers (new old : ProgConfig) : Bool :=
  new.configured != old.configured || new.priority != old.priority || new.quality != old.quality

/-- A committed SET PROGRAM (R60 to R62). -/
def State.commitProgram (s : State) (p : Prog) (c : ProgConfig) : State :=
  let old := (s.program p).config
  let s := s.setProgConfig p c
  let s := if old.configured && !c.configured then s.unconfigure p else s
  if c.planDiffers old then s.allocationPass else s

/-- A SET PROGRAM in the shadow (R65): an unconfiguring clears the program from the shadow's outputs. -/
def Shadow.write (h : Shadow) (p : Prog) (c : ProgConfig) : Shadow :=
  let outputs :=
    if (h.programs.get p).configured && !c.configured then h.outputs.map fun x => x.clear p else h.outputs
  ⟨h.programs.set p c, outputs⟩

/-- R59 step 5: the record written, to the shadow while a hold is active. -/
def State.writeProgram (s : State) (p : Prog) (c : ProgConfig) : State :=
  match s.planner.hold with
  | some h => s.setHold (some (h.write p c))
  | none => s.commitProgram p c

/-- SET PROGRAM (program, configured, label, priority, quality, engagement mode): R59. -/
def setProgram (p : Prog) (given : ProgConfig) (s : State) : Reply :=
  let c := storedConfig p given
  let old := (s.plannedConfig p).configured
  if s.session.state ≠ .setup ∧ p ≠ 0 ∧ c.configured ≠ old then s.refuse .locked
  else if p ≠ 0 ∧ old ∧ ¬ c.configured ∧ 0 < (s.program p).demand then s.refuse .inUse
  else ⟨s.writeProgram p c, if c = given then .ok else .okClamped,
    c.bytes ++ flagByte s.planner.hold.isSome⟩

/-- SET PROGRAM (R59). -/
def execSetProgram (p : Port) (params : List Byte) (s : State) : Host.Outcome State Fault Refusal :=
  .next (s.serve p 0x55#8 params (withParams (setProgramParams? params) fun a => setProgram a.1 a.2))

/-! ### The plan hold -/

/-- PLAN HOLD: R64. Its OK carries no field (DEDUCED, log entry 22). -/
def planHold (_ : Unit) (s : State) : Reply :=
  if s.planner.hold.isSome then s.refuse .busy else ⟨s.setHold (some s.makeShadow), .ok, []⟩

/-- PLAN HOLD (R64). -/
def execPlanHold (p : Port) (params : List Byte) (s : State) : Host.Outcome State Fault Refusal :=
  .next (s.serve p 0x56#8 params (withParams (noParams? params) planHold))

/-- The lowest program that the release would unconfigure and that has demand, if there is one (R66). -/
def State.releaseBlocker (s : State) (h : Shadow) : Option Prog :=
  (List.finRange 32).find? fun p =>
    (s.program p).config.configured && !(h.programs.get p).configured && decide (0 < (s.program p).demand)

/-- R66 steps 1 and 2: the committed programs and outputs take the shadow's values; retained groups 5 and 6. -/
def State.applyShadow (s : State) (h : Shadow) : State :=
  let s := s.writePrograms fun p r =>
    let c := h.programs.get p
    { r with
      config := c
      radiation := if r.config.configured && !c.configured then .unconfigured else r.radiation }
  ({ s with booth := { s.booth with
      configs := s.booth.configs.mapIdx fun b (c : BoothConfig) => c.withOutputs (h.outputs.get b) } }).rewrite 5

/-- R66 step 3, the first half: every desk that selects one of its own booth's outputs selects floor (R4). -/
def State.revertAll (s : State) : State :=
  { s with booth := { s.booth with desks := s.booth.desks.mapIdx fun i r =>
      { r with selected := (s.boothConfig (deskAt i).booth).outputs.revert r.selected } } }

/-- The number of program records that the release changes (R66). -/
def State.programsChanged (s : State) (h : Shadow) : Nat :=
  ((List.finRange 32).filter fun p => (s.program p).config != h.programs.get p).length

/-- The number of booth records that the release changes (R66). -/
def State.boothsChanged (s : State) (h : Shadow) : Nat :=
  ((List.finRange 24).filter fun b => (s.boothConfig b).outputs != h.outputs.get b).length

/-- R66 steps 1 to 6. -/
def State.releasePlan (s : State) (h : Shadow) : State :=
  ((((s.applyShadow h).revertAll.dropSelections).derivationPass).allocationPass).setHold none

/-- PLAN RELEASE: R66. -/
def planRelease (_ : Unit) (s : State) : Reply :=
  match s.planner.hold with
  | none => s.refuse .notActive
  | some h =>
    match s.releaseBlocker h with
    | some p => ⟨s, .inUse, be 1 p.val⟩
    | none => ⟨s.releasePlan h, .ok, be 1 (s.programsChanged h) ++ be 1 (s.boothsChanged h)⟩

/-- PLAN RELEASE (R66). -/
def execPlanRelease (p : Port) (params : List Byte) (s : State) : Host.Outcome State Fault Refusal :=
  .next (s.serve p 0x57#8 params (withParams (noParams? params) planRelease))

/-- PLAN ABANDON: R67. Its OK carries no field (DEDUCED, log entry 22). -/
def planAbandon (_ : Unit) (s : State) : Reply :=
  if s.planner.hold.isSome then ⟨s.setHold none, .ok, []⟩ else s.refuse .notActive

/-- PLAN ABANDON (R67). -/
def execPlanAbandon (p : Port) (params : List Byte) (s : State) : Host.Outcome State Fault Refusal :=
  .next (s.serve p 0x58#8 params (withParams (noParams? params) planAbandon))

/-! ### READ PLAN -/

/-- READ PLAN's committed part (R68). Of the candidate it carries the bank (log entry 28). -/
def State.committedPlanBytes (s : State) : List Byte :=
  be 1 s.planner.bank.val ++ be 1 s.budget ++ be 1 s.planner.slotsInUse ++ be 1 s.planner.lines.val
    ++ optBytes 1 (s.planner.candidate.map fun c => c.1.val) ++ flagByte s.planner.hold.isSome
    ++ be 1 (carriedList s.programs).length
    ++ s.programs.rows.flatMap fun r => be 1 r.radiation.code ++ be 1 r.config.quality.code

/-- READ PLAN (selector): R68. -/
def readPlan (sel : PlanSelector) (s : State) : Reply :=
  match sel, s.planner.hold with
  | .committed, _ => ⟨s, .ok, s.committedPlanBytes⟩
  | .pendingPrograms, some h => ⟨s, .ok, h.programs.rows.flatMap ProgConfig.bytes⟩
  | .pendingBooths, some h => ⟨s, .ok, h.outputs.rows.flatMap fun x => optProgBytes x.a ++ optProgBytes x.b⟩
  | .pendingPrograms, none => s.refuse .notActive
  | .pendingBooths, none => s.refuse .notActive

/-- READ PLAN (R68). -/
def execReadPlan (p : Port) (params : List Byte) (s : State) : Host.Outcome State Fault Refusal :=
  .next (s.serve p 0x68#8 params (withParams (oneByte? planSelector? params) readPlan))

/-! ### The bank table and the health lines -/

/-- Bank `k`'s budget written: retained group 7. -/
def State.setBudget (s : State) (k : Fin 8) (v : Nat) : State :=
  ({ s with planner := { s.planner with budgets := s.planner.budgets.set k v } }).rewrite 6

/-- SET BANK BUDGET (bank, budget): R69. -/
def setBankBudget (k : Fin 8) (v : Nat) (s : State) : Reply :=
  let stored := min 32 v
  let t := s.setBudget k stored
  let t := if k = s.planner.bank ∧ stored ≠ s.budget then t.allocationPass else t
  ⟨t, if stored = v then .ok else .okClamped, be 1 stored⟩

/-- SET BANK BUDGET (R69). -/
def execSetBankBudget (p : Port) (params : List Byte) (s : State) : Host.Outcome State Fault Refusal :=
  .next (s.serve p 0x59#8 params (withParams (bankParams? params) fun a => setBankBudget a.1 a.2))

/-- The debounce's answer to the lines showing `lines` (R70). -/
def State.newCandidate (s : State) (lines : Fin 8) : Option (Fin 8 × Nat) :=
  if lines = s.planner.bank then none else some (lines, s.now)

/-- HEALTH_LINE_CHANGE (R70): the pins take their new level, and the debounce runs unless main power is off or
RESET_N is asserted (R71). The level they already show is no change. -/
def execHealthLineChange (lines : Fin 8) (s : State) : Host.Outcome State Fault Refusal :=
  .next <|
    if lines = s.planner.lines then s
    else if s.operating then
      { s with planner := { s.planner with lines := lines, candidate := s.newCandidate lines } }
    else { s with planner := { s.planner with lines := lines } }

/-- A candidate becomes the current bank (R70), without the allocation pass. -/
def State.takeBank (s : State) (b : Fin 8) : State :=
  let old := s.planner.bank
  let s := { s with planner := { s.planner with bank := b, candidate := none } }
  s.notify .bankChanged old.val b.val s.budget 0

/-- DEBOUNCE_EXPIRY (R70, R71): the candidate has been held for 500 ms. The allocation pass is not run while a start-up
is running. Before that, and with no candidate, it is no event (log entry 14). -/
def execDebounceExpiry (s : State) : Host.Outcome State Fault Refusal :=
  .next <|
    match s.debounceDue with
    | some b =>
      let s := s.takeBank b
      if s.starting then s else s.allocationPass
    | none => s

end Sys2Proof.Machine
end

