-- ==== Sys2Proof/Machine/Registry.lean ====
section
/-! DEFINITION. The Receiver Registry (spec/06): placing, seating and freeing receivers, the operator's commands, the
stocktake, READ RECEIVER, and what hire events do to a record (R105). The rack events are in Racks.lean. -/

namespace Sys2Proof.Machine

/-! ### Records -/

/-- A slot's number. -/
def slotNo (k : Fin 512) : Nat := k.val + 1

/-- A record put in its place in ascending order of `key` (R92, R113). -/
def insertAsc {α : Type} (key : α → Nat) (a : α) (l : List α) : List α :=
  match l with
  | [] => [a]
  | b :: rest => if key a < key b then a :: b :: rest else b :: insertAsc key a rest

/-- The racked states (R93). -/
def ReceiverState.racked (x : ReceiverState) : Bool :=
  match x with
  | .ready | .charging => true
  | .onHire | .unracked | .lost | .withdrawn => false

/-- The racked state that a battery gives (R93). -/
def rackedState (threshold : Nat) (battery : Option Nat) : ReceiverState :=
  match battery with
  | some b => if threshold ≤ b then .ready else .charging
  | none => .charging

/-- The receiver placed in a racked state by its battery (R93). -/
def Receiver.place (threshold : Nat) (r : Receiver) : Receiver :=
  { r with state := rackedState threshold r.battery }

/-- The receiver placed again by its battery, if it is in a racked state. -/
def Receiver.replace (threshold : Nat) (r : Receiver) : Receiver :=
  if r.state.racked then r.place threshold else r

/-- A receiver's state set. -/
def State.setReceiverState (s : State) (n : Nat) (x : ReceiverState) : State :=
  s.modifyReceiver n fun r => { r with state := x }

/-- Receiver `n`'s slot freed: the map entry and the record's slot together (R94). -/
def State.freeSlot (s : State) (n : Nat) : State :=
  match (s.receiver n).bind (·.slot) with
  | some k => (s.setSlot k none).modifyReceiver n fun r => { r with slot := none }
  | none => s

/-- Receiver `n` seated in slot `k` (R94): a different slot it held is emptied first. -/
def State.seat (s : State) (n : Nat) (k : Fin 512) : State :=
  ((s.freeSlot n).setSlot k (some n)).modifyReceiver n fun r => { r with slot := some k }

/-- Receiver `n`'s stocktake mark cleared, and the count of marks still set with it (R108). -/
def State.clearMark (s : State) (n : Nat) : State :=
  match s.receiver n with
  | some r =>
    if r.mark then
      (s.modifyReceiver n fun r => { r with mark := false }).setStocktake
        { s.registry.stocktake with marksLeft := s.registry.stocktake.marksLeft - 1 }
    else s
  | none => s

/-! ### What hire events do to a record (R105) -/

/-- Issue: the receiver becomes ON_HIRE with the hire's number, its issue count rises by one, saturating, and its mark
is cleared; its slot and battery stay. -/
def State.issueReceiver (s : State) (n hire : Nat) : State :=
  (s.clearMark n).modifyReceiver n fun r =>
    { r with state := .onHire, hire := some hire, issues := min 65535 (r.issues + 1) }

/-- Return and recovery: the receiver becomes UNRACKED, its slot is freed and its hire number cleared. -/
def State.unrackReceiver (s : State) (n : Nat) : State :=
  (s.freeSlot n).modifyReceiver n fun r => { r with state := .unracked, hire := none }

/-- Write-off: the receiver becomes LOST, its slot is freed and it keeps the hire's number. -/
def State.loseReceiver (s : State) (n hire : Nat) : State :=
  (s.freeSlot n).modifyReceiver n fun r => { r with state := .lost, hire := some hire }

/-! ### READ RECEIVER -/

/-- The counts that every READ RECEIVER answer carries (R95). -/
def State.registryCounts (s : State) : List Byte :=
  let t := s.registry.stocktake
  be 2 s.registry.receivers.length ++ be 1 s.registry.threshold ++ be 1 (if t.running then 2 else 1)
    ++ be 2 t.marksLeft

/-- A receiver record's fields in an answer (R92, R95). -/
def Receiver.bytes (r : Receiver) : List Byte :=
  be 2 r.number ++ be 1 r.state.code ++ optBytes 2 r.hire ++ optBytes 1 r.battery
    ++ optBytes 2 (r.slot.map slotNo) ++ be 2 r.issues ++ flagByte r.mark

/-- The record a selector finds (R95). -/
def State.findReceiver (s : State) (sel : ReceiverSelector) : Option Receiver :=
  match sel with
  | .byNumber n => s.receiver n
  | .byOrder place => s.registry.receivers[place - 1]?
  | .bySlot k => (s.registry.slots.get k).bind s.receiver

/-- The result of a READ RECEIVER that finds nothing: UNKNOWN for a number, EMPTY for a place or a slot (R95). -/
def ReceiverSelector.missing (sel : ReceiverSelector) : Result :=
  match sel with
  | .byNumber _ => .unknown
  | .byOrder _ | .bySlot _ => .empty

/-- READ RECEIVER (selector, value): R95. -/
def readReceiver (sel : ReceiverSelector) (s : State) : Reply :=
  match s.findReceiver sel with
  | some r => ⟨s, .ok, r.bytes ++ s.registryCounts⟩
  | none => ⟨s, sel.missing, s.registryCounts⟩

/-- READ RECEIVER (R95). A selector that is none of the three, or a value out of range, is refused MALFORMED without the counts
that R95 gives every answer: the model's choice (DESIGN CHOICE, log entry 46). -/
def execReadReceiver (p : Port) (params : List Byte) (s : State) : Host.Outcome State Fault Refusal :=
  .next (s.serve p 0x36#8 params (withParams (readReceiverParams? params) readReceiver))

/-! ### The operator's commands -/

/-- A newly enrolled record (R96). -/
def Receiver.enrolled (n : Nat) : Receiver := ⟨n, .unracked, none, none, none, 0, false⟩

/-- ENROL RECEIVER (receiver): R96. -/
def enrolReceiver (n : Nat) (s : State) : Reply :=
  let l := s.registry.receivers
  if (s.receiver n).isSome then s.refuse .duplicate
  else if 2048 ≤ l.length then s.refuse .tableFull
  else ⟨s.setReceivers (insertAsc (·.number) (.enrolled n) l), .ok,
    be 2 ((l.filter fun r => r.number < n).length + 1) ++ be 2 (l.length + 1)⟩

/-- ENROL RECEIVER (R96). -/
def execEnrolReceiver (p : Port) (params : List Byte) (s : State) : Host.Outcome State Fault Refusal :=
  .next (s.serve p 0x5E#8 params (withParams (receiverParam? params) enrolReceiver))

/-- The answer of WITHDRAW RECEIVER: the receiver's state and slot as they stand (R97). -/
def State.withdrawAnswer (s : State) (n : Nat) : Reply :=
  match s.receiver n with
  | some r => ⟨s, .ok, be 1 r.state.code ++ optBytes 2 (r.slot.map slotNo)⟩
  | none => ⟨s, .ok, []⟩

/-- WITHDRAW RECEIVER (receiver): R97. That the refusal ON_HIRE carries no field, though R97 says what "the answer" carries
after all its cases, is the model's choice (DESIGN CHOICE, log entry 41). -/
def withdrawReceiver (n : Nat) (s : State) : Reply :=
  match s.receiver n with
  | none => s.refuse .unknown
  | some r =>
    match r.state with
    | .onHire => s.refuse .onHire
    | .withdrawn => s.withdrawAnswer n
    | .ready | .charging | .unracked => ((s.clearMark n).setReceiverState n .withdrawn).withdrawAnswer n
    | .lost => (s.modifyReceiver n fun r => { r with state := .withdrawn, hire := none }).withdrawAnswer n

/-- WITHDRAW RECEIVER (R97). -/
def execWithdrawReceiver (p : Port) (params : List Byte) (s : State) : Host.Outcome State Fault Refusal :=
  .next (s.serve p 0x5F#8 params (withParams (receiverParam? params) withdrawReceiver))

/-- The state that REINSTATE RECEIVER gives a receiver (R98). -/
def Receiver.reinstated (threshold : Nat) (r : Receiver) : ReceiverState :=
  if r.slot.isSome then rackedState threshold r.battery else .unracked

/-- REINSTATE RECEIVER (receiver): R98. -/
def reinstateReceiver (n : Nat) (s : State) : Reply :=
  match s.receiver n with
  | none => s.refuse .unknown
  | some r =>
    if r.state = .withdrawn then
      let x := r.reinstated s.registry.threshold
      ⟨s.setReceiverState n x, .ok, be 1 x.code⟩
    else s.refuse .notActive

/-- REINSTATE RECEIVER (R98). -/
def execReinstateReceiver (p : Port) (params : List Byte) (s : State) : Host.Outcome State Fault Refusal :=
  .next (s.serve p 0x60#8 params (withParams (receiverParam? params) reinstateReceiver))

/-- Receiver `n`'s record removed, its slot freed as it goes (R94, R99). -/
def State.removeReceiver (s : State) (n : Nat) : State :=
  let t := s.freeSlot n
  t.setReceivers (t.registry.receivers.filter fun r => r.number ≠ n)

/-- DELETE RECEIVER (receiver): R99. -/
def deleteReceiver (n : Nat) (s : State) : Reply :=
  match s.receiver n with
  | none => s.refuse .unknown
  | some r =>
    if r.state = .withdrawn ∨ r.state = .lost then
      let t := s.removeReceiver n
      ⟨t, .ok, be 2 t.registry.receivers.length⟩
    else s.refuse .notReady

/-- DELETE RECEIVER (R99). -/
def execDeleteReceiver (p : Port) (params : List Byte) (s : State) : Host.Outcome State Fault Refusal :=
  .next (s.serve p 0x61#8 params (withParams (receiverParam? params) deleteReceiver))

/-- The issue threshold written: retained group 7. -/
def State.writeThreshold (s : State) (v : Nat) : State :=
  ({ s with registry := { s.registry with threshold := v } }).rewrite 6

/-- SET THRESHOLD (percent): R100. -/
def setThreshold (v : Nat) (s : State) : Reply :=
  let stored := clamp 20 100 v
  let l := s.registry.receivers
  let changed := (l.filter fun r => (r.replace stored).state != r.state).length
  ⟨(s.writeThreshold stored).setReceivers (l.map (Receiver.replace stored)),
    if stored = v then .ok else .okClamped, be 1 stored ++ be 2 changed⟩

/-- SET THRESHOLD (R100). -/
def execSetThreshold (p : Port) (params : List Byte) (s : State) : Host.Outcome State Fault Refusal :=
  .next (s.serve p 0x5B#8 params (withParams (oneByte? (fun b => some b.toNat) params) setThreshold))

/-! ### The stocktake -/

/-- The length of a stocktake's window (R107). -/
def stocktakeWindow : Nat := 300000

/-- STOCKTAKE START: R107. -/
def stocktakeStart (_ : Unit) (s : State) : Reply :=
  if s.registry.stocktake.running then s.refuse .busy
  else
    let l := s.registry.receivers
    let marked := (l.filter fun r => r.state.racked).length
    let t := s.setReceivers (l.map fun r => { r with mark := r.state.racked })
    ⟨t.setStocktake ⟨true, some (s.now + stocktakeWindow), marked, marked⟩, .ok,
      be 2 marked ++ be 3 stocktakeWindow⟩

/-- STOCKTAKE START (R107). -/
def execStocktakeStart (p : Port) (params : List Byte) (s : State) : Host.Outcome State Fault Refusal :=
  .next (s.serve p 0x3A#8 params (withParams (noParams? params) stocktakeStart))

/-- The slot map with the slots of the marked receivers emptied (R109). -/
def freeMarked (l : List Receiver) (slots : Table (Option Nat) 512) : Table (Option Nat) 512 :=
  l.foldl (fun t r =>
    match r.mark, r.slot with
    | true, some k => t.set k none
    | _, _ => t) slots

/-- A receiver at STOCKTAKE END: one still marked is taken to be gone (R109). -/
def Receiver.endStocktake (r : Receiver) : Receiver :=
  if r.mark then { r with state := .unracked, slot := none, mark := false } else r

/-- STOCKTAKE END: R109. -/
def stocktakeEnd (_ : Unit) (s : State) : Reply :=
  if s.registry.stocktake.running then
    let l := s.registry.receivers
    let t := { s with registry := { s.registry with slots := freeMarked l s.registry.slots } }
    ⟨(t.setReceivers (l.map Receiver.endStocktake)).setStocktake .idle, .ok,
      be 2 (l.filter (·.mark)).length ++ be 2 s.registry.stocktake.markedAtStart⟩
  else s.refuse .notActive

/-- STOCKTAKE END (R109). -/
def execStocktakeEnd (p : Port) (params : List Byte) (s : State) : Host.Outcome State Fault Refusal :=
  .next (s.serve p 0x3B#8 params (withParams (noParams? params) stocktakeEnd))

/-- Every stocktake mark cleared (R107, R110). -/
def State.clearMarks (s : State) : State :=
  { s with registry := { s.registry with
      receivers := s.registry.receivers.map fun r => { r with mark := false } } }

/-- STOCKTAKE_EXPIRY (R110): the timebase has reached the deadline of a RUNNING stocktake. Otherwise it is no event (log
entry 14). -/
def execStocktakeExpiry (s : State) : Host.Outcome State Fault Refusal :=
  .next <|
    let k := s.registry.stocktake
    if s.stocktakeDue then
      ((s.clearMarks).setStocktake .idle).notify .stocktakeAbandoned k.markedAtStart k.marksLeft 0 0
    else s

end Sys2Proof.Machine
end

