-- ==== Sys2Proof/Machine/Settlement.lean ====
section
/-! DEFINITION. The Settlement Unit (spec/08): tariff plans, the charge of a line, the account of a hire, the
settlement queue, the close of a hire (R126, R142 to R145) and TAKE SETTLEMENT. -/

namespace Sys2Proof.Machine

/-! ### The charge of a line (R137 to R140) -/

/-- Stage 1: the seconds from the hire's opening to the line's return, 0 where that is negative (R137). -/
def durationOf (opened : HallTime) (l : Line) : Nat :=
  match l.returnTime with
  | some t => t.abs - opened.abs
  | none => 0

/-- Stage 2: billable minutes (R137). -/
def minutesOf (seconds : Nat) : Nat := (seconds + 59) / 60

/-- Stage 3: gross units (R137). -/
def grossUnits (t : Tariff) (minutes : Nat) : Nat :=
  if minutes ≤ t.grace then 0 else (minutes + t.unitLength - 1) / t.unitLength

/-- Stage 4: the line's outage in seconds, modulo 2^32 (R138). -/
def outageOf (l : Line) : BitVec 32 :=
  match l.base, l.outageAtReturn with
  | some base, some at_ => l.carried + (at_ - base)
  | _, _ => l.carried

/-- Stage 5: credited units (R138). -/
def creditedUnits (t : Tariff) (outage gross : Nat) : Nat := min (outage / (t.unitLength * 60)) gross

/-- The started 24-hour periods of a line, at least one (R139). -/
def periodsOf (seconds : Nat) : Nat := max 1 ((seconds + 86399) / 86400)

/-- Stage 7: the raw charge under the daily cap (R139). -/
def cappedCharge (t : Tariff) (seconds raw : Nat) : Nat :=
  if t.dailyCap = 0 then raw else min raw (periodsOf seconds * t.dailyCap)

/-- The largest line charge (R139). -/
def maxLineCharge : Nat := 16777215

/-- Stages 6 to 8: the line charge (R139). -/
def lineCharge (t : Tariff) (seconds gross credited : Nat) : Nat :=
  min (cappedCharge t seconds ((gross - credited) * t.unitCharge)) maxLineCharge

/-- The frozen figures of a returned line (R137 to R139, R142). -/
def returnedAccount (t : Tariff) (opened : HallTime) (l : Line) : LineAccount :=
  let seconds := durationOf opened l
  let minutes := minutesOf seconds
  let gross := grossUnits t minutes
  let credited := creditedUnits t (outageOf l).toNat gross
  ⟨l.receiver, .returned, minutes, gross, credited, lineCharge t seconds gross credited⟩

/-- The frozen figures of a line: a LOST line is charged the plan's lost charge (R140). -/
def lineAccount (t : Tariff) (opened : HallTime) (l : Line) : LineAccount :=
  match l.state with
  | .lost => ⟨l.receiver, .lost, 0, 0, 0, t.lostCharge⟩
  | .out | .returned => returnedAccount t opened l

/-- The account of a hire under its plan as the plan stands (R141, R142). -/
def accountOf (t : Tariff) (h : Hire) : Account :=
  let lines := h.lines.map (lineAccount t h.openedAt)
  let total := (lines.map (·.charge)).sum
  ⟨lines, total, (h.deposit : Int) - (total : Int)⟩

/-- Plan `k` as it stands. -/
def State.tariff (s : State) (k : Fin 8) : Tariff := s.settlement.tariffs.get k

/-! ### The settlement queue -/

/-- The number of SETTLING hires (R145). -/
def State.settlingCount (s : State) : Nat := (s.hires.records.filter fun h => h.state == .settling).length

/-- A settlement record built from a hire's frozen figures (R143). -/
def Hire.settled (h : Hire) (closed : HallTime) (a : Account) : Settled :=
  ⟨h.number, h.badge, h.plan, h.deposit, h.openedAt, closed, h.overdue, h.suspect, a⟩

/-- The day counters of settlement increased for a record (R148). -/
def DayCounters.addSettled (c : DayCounters) (a : Account) : DayCounters :=
  { c with
    hiresSettled := satAdd32 c.hiresSettled 1
    charges := satAdd32 c.charges a.total
    refunds := satAdd32 c.refunds a.balance.toNat
    due := satAdd32 c.due (-a.balance).toNat }

/-- A record appended to the queue (R144): the day counters rise, and an append to an empty queue queues
SETTLEMENT_WAITING. -/
def State.appendSettled (s : State) (r : Settled) : State :=
  let old := s.settlement.queue
  let s := (s.setQueue (old ++ [r])).modifyCounters fun c => c.addSettled r.account
  if old.isEmpty then s.notify .settlementWaiting r.hire 1 0 0 else s

/-- Hire `n`'s record removed from the table (R126). -/
def State.removeHire (s : State) (n : Nat) : State :=
  s.setHires (s.hires.records.filter fun h => h.number ≠ n)

/-! ### The close of a hire -/

/-- Which way a closed hire went (R120, R142). -/
inductive CloseWay
  | queued
  | settling
deriving DecidableEq, Repr

/-- The code of a way, by its place in the rule that names the two (R120). -/
def CloseWay.code (w : CloseWay) : Nat := match w with | .queued => 1 | .settling => 2

/-- A hire with its closed time, and its clock-suspect flag where the clock is not valid (R119, R126 step 1). -/
def Hire.close (h : Hire) (time : HallTime) (valid : Bool) : Hire :=
  { h with closedAt := some time, suspect := h.suspect || !valid }

/-- A closed hire that waits as SETTLING with its frozen account (R145). -/
def Hire.wait (h : Hire) (position : Nat) (a : Account) : Hire :=
  { h with state := .settling, closingPos := some position, account := some a }

/-- The close of hire `h` (R126, R142, R144, R145). -/
def State.closeHire (s : State) (h : Hire) : State × CloseWay :=
  let c := h.close s.session.clock s.session.valid
  let a := accountOf (s.tariff h.plan) c
  if s.settlement.queue.length < 64 then
    ((s.removeHire h.number).appendSettled (c.settled s.session.clock a), .queued)
  else
    ((s.modifyHire h.number fun _ => c.wait (s.settlingCount + 1) a).raiseFault .settlementBacklog h.number,
      .settling)

/-- Whether a hire has a line OUT. -/
def Hire.anyOut (h : Hire) : Bool := h.lines.any fun l => l.state == .out

/-- Hire `n` closed if no line of it is left OUT (R118 step 6, R122 step 5). -/
def State.closeIfDone (s : State) (n : Nat) : State × Option CloseWay :=
  match s.hire n with
  | none => (s, none)
  | some h =>
    if h.anyOut then (s, none)
    else
      let (s, way) := s.closeHire h
      (s, some way)

/-! ### TAKE SETTLEMENT -/

/-- One line of a settlement record (R179). -/
def LineAccount.bytes (l : LineAccount) : List Byte :=
  be 2 l.receiver ++ be 1 l.outcome.outcomeCode ++ be 3 l.minutes ++ be 3 l.gross ++ be 3 l.credited
    ++ be 3 l.charge

/-- A settlement record's bytes (R179). -/
def Settled.bytes (r : Settled) : List Byte :=
  be 2 r.hire ++ be 3 r.badge ++ be 1 r.plan.val ++ be 3 r.deposit ++ timeBytes r.openedAt
    ++ timeBytes r.closedAt ++ be 1 (bitAt r.overdue 0 + bitAt r.suspect 1) ++ be 1 r.account.lines.length
    ++ r.account.lines.flatMap LineAccount.bytes ++ be 4 r.account.total ++ balanceBytes r.account.balance

/-- The SETTLING hire at closing position 1, if there is one (R146). -/
def State.firstSettling (s : State) : Option Hire :=
  s.hires.records.find? fun h => h.state == .settling && h.closingPos == some 1

/-- A SETTLING hire moves down one closing position (R146). -/
def Hire.moveUp (h : Hire) : Hire :=
  if h.state = .settling then { h with closingPos := h.closingPos.map (· - 1) } else h

/-- The account a SETTLING hire froze at its close (R147). -/
def State.frozen (s : State) (h : Hire) : Account := h.account.getD (accountOf (s.tariff h.plan) h)

/-- Hire `h` drawn into the queue (R146 step 2). -/
def State.drawIn (s : State) (h : Hire) : State :=
  let r := h.settled (h.closedAt.getD s.session.clock) (s.frozen h)
  let s := s.appendSettled r
  let s := s.removeHire h.number
  s.setHires (s.hires.records.map Hire.moveUp)

/-- R146 on a queue whose oldest record is taken: with the queue's rest, a SETTLING hire is drawn in. The queue was
not empty before the append, so it queues no SETTLEMENT_WAITING. -/
def State.takeRest (s : State) (oldest : Settled) (rest : List Settled) : State :=
  match s.firstSettling with
  | none => s.setQueue rest
  | some h =>
    let t := (s.setQueue (oldest :: rest)).drawIn h
    t.setQueue t.settlement.queue.tail

/-- TAKE SETTLEMENT: R146, R179. -/
def takeSettlement (_ : Unit) (s : State) : Reply :=
  match s.settlement.queue with
  | [] => ⟨s, .empty, be 1 0⟩
  | r :: rest =>
    let t := s.takeRest r rest
    ⟨t, .ok, r.bytes ++ be 1 t.settlement.queue.length ++ be 2 t.settlingCount
      ++ optBytes 2 (s.firstSettling.map (·.number))⟩

/-- TAKE SETTLEMENT (R146). -/
def execTakeSettlement (p : Port) (params : List Byte) (s : State) : Host.Outcome State Fault Refusal :=
  .next (s.serve p 0x3C#8 params (withParams (noParams? params) takeSettlement))

/-! ### Tariff plans -/

/-- A plan's six fields as an answer carries them (R134 to R136). -/
def Tariff.bytes (t : Tariff) : List Byte :=
  be 1 t.grace ++ be 2 t.unitLength ++ be 2 t.unitCharge ++ be 3 t.dailyCap ++ be 3 t.lostCharge
    ++ be 1 t.hireLimit

/-- A plan clamped to the ranges of R134 (R135). -/
def Tariff.clamped (t : Tariff) : Tariff :=
  ⟨clamp 0 120 t.grace, clamp 1 1440 t.unitLength, clamp 0 65535 t.unitCharge, clamp 0 1000000 t.dailyCap,
    clamp 0 1000000 t.lostCharge, clamp 1 240 t.hireLimit⟩

/-- SET TARIFF (plan and its six values): R135. -/
def setTariff (k : Fin 8) (t : Tariff) (s : State) : Reply :=
  ⟨s.setTariff k t.clamped, if t.clamped = t then .ok else .okClamped, t.clamped.bytes⟩

/-- SET TARIFF (R135). -/
def execSetTariff (p : Port) (params : List Byte) (s : State) : Host.Outcome State Fault Refusal :=
  .next (s.serve p 0x5A#8 params (withParams (tariffParams? params) fun a => setTariff a.1 a.2))

/-- READ TARIFF (plan): R136. -/
def readTariff (k : Fin 8) (s : State) : Reply := ⟨s, .ok, (s.tariff k).bytes⟩

/-- READ TARIFF (R136). -/
def execReadTariff (p : Port) (params : List Byte) (s : State) : Host.Outcome State Fault Refusal :=
  .next (s.serve p 0x69#8 params (withParams (oneByte? plan? params) readTariff))

end Sys2Proof.Machine
end

