-- ==== Sys2Proof/Machine/Hires.lean ====
section
/-! DEFINITION. The Hire Table (spec/07): opening, adding, returning, writing off, changing preset, the reads, the demand
counts and the overdue check. -/

namespace Sys2Proof.Machine

/-! ### Shared pieces -/

/-- The number of OUT lines of a hire. -/
def Hire.outCount (h : Hire) : Nat := (h.lines.filter fun l => l.state == .out).length

/-- A preset's demand count changed by `f`; a hire with no preset changes none (R128). -/
def State.changeDemand (s : State) (preset : Option Prog) (f : Nat → Nat) : State :=
  match preset with
  | some p => s.modifyProgram p fun r => { r with demand := f r.demand }
  | none => s

/-- A preset's outage seconds as they stand (R80). -/
def State.presetOutage (s : State) (preset : Option Prog) : Option (BitVec 32) :=
  preset.map fun p => (s.program p).outage

/-- A preset with its radiation state as it stands, or none (R116, R123): the two are one optional field, under one presence
byte (DESIGN CHOICE, log entry 40). -/
def State.presetBytes (s : State) (preset : Option Prog) : List Byte :=
  match preset with
  | none => be 1 0
  | some p => be 1 1 ++ be 1 p.val ++ be 1 (s.program p).radiation.code

/-- A new line for receiver `n`: OUT, with outage carried 0 (R116, R117). -/
def newLine (base : Option (BitVec 32)) (n : Nat) : Line := ⟨n, .out, base, 0, none, none⟩

/-- Whether a preset names a program that is not configured in the committed table (R115, R123). -/
def State.presetUnconfigured (s : State) (preset : Option Prog) : Bool :=
  match preset with
  | some p => !(s.program p).config.configured
  | none => false

/-! ### OPEN HIRE -/

/-- The hire number after `n`, wrapping from 9999 to 1 (R114). -/
def nextHireNumber (n : Nat) : Nat := if 9999 ≤ n then 1 else n + 1

/-- The first number from `n` on that no record holds; at most 512 records stand, so 513 tries are enough (R114). -/
def freeHireNumber (l : List Hire) (fuel n : Nat) : Nat :=
  match fuel with
  | 0 => n
  | k + 1 => if l.any fun h => h.number == n then freeHireNumber l k (nextHireNumber n) else n

/-- R115 step 6: the first receiver of the list that fails, with the result, and its place in the list. -/
def State.checkReceivers (s : State) (earlier : List Nat) (l : List Nat) : Option (Result × Nat × Nat) :=
  match l with
  | [] => none
  | n :: rest =>
    let place := earlier.length + 1
    match s.receiver n with
    | none => some (.unknown, n, place)
    | some r =>
      if r.state ≠ .ready then some (.notReady, n, place)
      else if n ∈ earlier then some (.duplicate, n, place)
      else s.checkReceivers (earlier ++ [n]) rest

/-- The largest deposit (R111). -/
def maxDeposit : Nat := 1000000

/-- The record that OPEN HIRE creates (R116 steps 2 and 3). -/
def State.newHire (s : State) (number : Nat) (a : OpenArgs) : Hire :=
  ⟨number, .opened, a.badge, a.plan, min maxDeposit a.deposit, a.preset, s.session.clock, false, false, none,
    none, a.receivers.map (newLine (s.presetOutage a.preset)), none⟩

/-- The day counters of an OPEN HIRE (R116 step 6). -/
def DayCounters.addOpened (c : DayCounters) (lines : Nat) : DayCounters :=
  { c with hiresOpened := satAdd32 c.hiresOpened 1, issued := satAdd32 c.issued lines }

/-- R116 steps 1 to 6. -/
def State.openHire (s : State) (number : Nat) (a : OpenArgs) : State :=
  let h := s.newHire number a
  let s := s.setHireCounter (nextHireNumber number)
  let s := s.setHires (insertAsc (·.number) h s.hires.records)
  let s := a.receivers.foldl (fun s n => s.issueReceiver n number) s
  let s := s.changeDemand a.preset (· + a.receivers.length)
  s.modifyCounters fun c => c.addOpened a.receivers.length

/-- The record that holds a badge, if one does (R111, R125). -/
def State.badgeHire (s : State) (badge : Nat) : Option Hire := s.hires.records.find? fun h => h.badge == badge

/-- The fields of OPEN HIRE's answer (R116). -/
def State.openAnswer (s : State) (h : Hire) : List Byte :=
  be 2 h.number ++ be 3 h.deposit ++ be 1 h.lines.length ++ timeBytes h.openedAt ++ s.presetBytes h.preset

/-- OPEN HIRE (badge, plan, deposit, preset, receivers): R115 from step 2, R116. -/
def openHire (a : OpenArgs) (s : State) : Reply :=
  if ¬ s.session.valid then s.refuse .noClock
  else if 512 ≤ s.hires.records.length then s.refuse .tableFull
  else
    match s.badgeHire a.badge with
    | some h => ⟨s, .badgeActive, be 2 h.number⟩
    | none =>
      if s.presetUnconfigured a.preset then s.refuse .notConfigured
      else
        match s.checkReceivers [] a.receivers with
        | some (r, n, place) => ⟨s, r, be 2 n ++ be 1 place⟩
        | none =>
          let number := freeHireNumber s.hires.records 513 s.hires.counter
          ⟨s.openHire number a, if maxDeposit < a.deposit then .okClamped else .ok,
            s.openAnswer (s.newHire number a)⟩

/-- OPEN HIRE (R115). -/
def execOpenHire (p : Port) (params : List Byte) (s : State) : Host.Outcome State Fault Refusal :=
  .next (s.serve p 0x30#8 params (withParams (openHireParams? params) openHire))

/-! ### ADD RECEIVER -/

/-- ADD RECEIVER's effect on an OPEN hire and a READY receiver (R117). -/
def State.addLine (s : State) (h : Hire) (n : Nat) : State :=
  let base := s.presetOutage h.preset
  let s := s.modifyHire h.number fun h => { h with lines := h.lines ++ [newLine base n] }
  let s := s.issueReceiver n h.number
  let s := s.changeDemand h.preset (· + 1)
  s.modifyCounters fun c => { c with issued := satAdd32 c.issued 1 }

/-- ADD RECEIVER (hire, receiver): R117 from check 2. -/
def addReceiver (k n : Nat) (s : State) : Reply :=
  match s.hire k with
  | none => s.refuse .unknown
  | some h =>
    if h.state = .settling then s.refuse .notActive
    else if 8 ≤ h.lines.length then s.refuse .linesFull
    else
      match s.receiver n with
      | none => s.refuse .unknown
      | some r =>
        if r.state ≠ .ready then s.refuse .notReady
        else ⟨s.addLine h n, .ok, be 1 (h.lines.length + 1) ++ be 1 (h.lines.length + 1)⟩

/-- ADD RECEIVER (R117). -/
def execAddReceiver (p : Port) (params : List Byte) (s : State) : Host.Outcome State Fault Refusal :=
  .next (s.serve p 0x31#8 params (withParams (hireReceiverParams? params) fun a => addReceiver a.1 a.2))

/-! ### Returns -/

/-- The index of a hire's OUT line for receiver `n`, if it has one (R112, R118). -/
def Hire.outLine (h : Hire) (n : Nat) : Option Nat :=
  h.lines.findIdx? fun l => l.receiver == n && l.state == .out

/-- A hire's line at index `i` changed by `f`. -/
def Hire.modifyLine (h : Hire) (i : Nat) (f : Line → Line) : Hire := { h with lines := h.lines.modify i f }

/-- R118 step 1: the line becomes RETURNED. -/
def Line.giveBack (l : Line) (time : HallTime) (outage : Option (BitVec 32)) : Line :=
  { l with
    state := .returned
    returnTime := some time
    outageAtReturn := if l.base.isSome then outage else none }

/-- What a return or a write-off tells its answer (R120, R122): the hire, the line's place and, if the hire closed,
which way it went. -/
structure LineOutcome where
  hire : Nat
  place : Nat
  way : Option CloseWay
deriving DecidableEq, Repr

/-- R118 steps 1 to 5 on the OUT line at index `i` of hire `h`. -/
def State.returnLine (s : State) (h : Hire) (i n : Nat) : State :=
  let time := s.session.clock
  let valid := s.session.valid
  let outage := s.presetOutage h.preset
  let s := s.modifyHire h.number fun h =>
    { h.modifyLine i fun l => l.giveBack time outage with suspect := h.suspect || !valid }
  let s := s.unrackReceiver n
  let s := s.changeDemand h.preset (· - 1)
  s.modifyCounters fun c => { c with returned := satAdd32 c.returned 1 }

/-- The hire and the line index that an ON_HIRE receiver's return resolves (R118). -/
def State.lineOf (s : State) (r : Receiver) : Option (Hire × Nat) :=
  match r.hire.bind s.hire with
  | none => none
  | some h => (h.outLine r.number).map fun i => (h, i)

/-- The return of an ON_HIRE receiver (R118), at the counter or at a rack. R112's law gives it exactly one line; where
no line is found, the receiver's part alone is done (log entry 15). -/
def State.returnReceiver (s : State) (r : Receiver) : State × LineOutcome :=
  match s.lineOf r with
  | some (h, i) =>
    let (s, way) := (s.returnLine h i r.number).closeIfDone h.number
    (s, ⟨h.number, i + 1, way⟩)
  | none => (s.unrackReceiver r.number, ⟨r.hire.getD 0, 0, none⟩)

/-- Whether a hire closed, and which way it went (R120, R122). -/
def closeBytes (way : Option CloseWay) : List Byte :=
  flagByte way.isSome ++ optBytes 1 (way.map CloseWay.code)

/-- RETURN RECEIVER (receiver): R120. The return time, and the hire number of a LOST receiver, are sent without a presence
byte, since they are present in every such answer (DESIGN CHOICE, log entry 39). -/
def returnReceiver (n : Nat) (s : State) : Reply :=
  match s.receiver n with
  | none => s.refuse .unknown
  | some r =>
    match r.state with
    | .onHire =>
      let (t, x) := s.returnReceiver r
      ⟨t, .ok, be 2 x.hire ++ be 1 x.place ++ timeBytes s.session.clock ++ flagByte s.session.valid
        ++ closeBytes x.way⟩
    | .lost => ⟨s.unrackReceiver n, .recovered, be 2 (r.hire.getD 0)⟩
    | .ready | .charging | .unracked | .withdrawn => s.refuse .notActive

/-- RETURN RECEIVER (R120). -/
def execReturnReceiver (p : Port) (params : List Byte) (s : State) : Host.Outcome State Fault Refusal :=
  .next (s.serve p 0x32#8 params (withParams (receiverParam? params) returnReceiver))

/-! ### WRITE OFF -/

/-- R122's effect, steps 1 to 4, on the OUT line at index `i` of hire `h`. -/
def State.writeOffLine (s : State) (h : Hire) (i n : Nat) : State :=
  let s := s.modifyHire h.number fun h => h.modifyLine i fun l => { l with state := .lost }
  let s := s.loseReceiver n h.number
  let s := s.changeDemand h.preset (· - 1)
  s.modifyCounters fun c => { c with writtenOff := satAdd32 c.writtenOff 1 }

/-- WRITE OFF (hire, receiver): R122 from check 2. -/
def writeOff (k n : Nat) (s : State) : Reply :=
  match s.hire k with
  | none => s.refuse .unknown
  | some h =>
    if h.state = .settling then s.refuse .notActive
    else
      match h.outLine n with
      | none => s.refuse .notActive
      | some i =>
        let (t, way) := (s.writeOffLine h i n).closeIfDone k
        ⟨t, .ok, be 1 (i + 1) ++ closeBytes way⟩

/-- WRITE OFF (R122). -/
def execWriteOff (p : Port) (params : List Byte) (s : State) : Host.Outcome State Fault Refusal :=
  .next (s.serve p 0x33#8 params (withParams (hireReceiverParams? params) fun a => writeOff a.1 a.2))

/-! ### CHANGE PRESET -/

/-- An OUT line moved to a new preset (R123): the outage so far is carried, and the base starts afresh. -/
def Line.move (l : Line) (old new : Option (BitVec 32)) : Line :=
  if l.state = .out then
    { l with
      carried :=
        match l.base, old with
        | some base, some now => l.carried + (now - base)
        | _, _ => l.carried
      base := new }
  else l

/-- CHANGE PRESET's effect (R123, R124). -/
def State.movePreset (s : State) (h : Hire) (preset : Option Prog) : State :=
  let old := s.presetOutage h.preset
  let new := s.presetOutage preset
  let s := s.modifyHire h.number fun h =>
    { h with preset := preset, lines := h.lines.map fun l => l.move old new }
  (s.changeDemand h.preset (· - h.outCount)).changeDemand preset (· + h.outCount)

/-- CHANGE PRESET (hire, preset): R123 from check 2. R123 names the answer's fields only for a change; that an answer OK to
a command that changes nothing carries them too, with 0 lines moved, is the model's choice (DESIGN CHOICE, log entry
34). -/
def changePreset (k : Nat) (preset : Option Prog) (s : State) : Reply :=
  match s.hire k with
  | none => s.refuse .unknown
  | some h =>
    if h.state = .settling then s.refuse .notActive
    else if s.presetUnconfigured preset then s.refuse .notConfigured
    else if preset = h.preset then ⟨s, .ok, be 1 0 ++ s.presetBytes preset⟩
    else ⟨s.movePreset h preset, .ok, be 1 h.outCount ++ s.presetBytes preset⟩

/-- CHANGE PRESET (R123). -/
def execChangePreset (p : Port) (params : List Byte) (s : State) : Host.Outcome State Fault Refusal :=
  .next (s.serve p 0x34#8 params (withParams (changePresetParams? params) fun a => changePreset a.1 a.2))

/-! ### READ HIRE and FIND BADGE -/

/-- The counts that every READ HIRE answer carries (R113). -/
def State.hireCounts (s : State) : List Byte :=
  be 2 s.hires.records.length ++ be 2 s.settlingCount ++ be 2 s.hires.counter

/-- A line's fields (R112, R113). -/
def Line.bytes (l : Line) : List Byte :=
  be 2 l.receiver ++ be 1 l.state.code ++ optBytes 4 (l.base.map (·.toNat)) ++ be 4 l.carried.toNat
    ++ optTimeBytes l.returnTime ++ optBytes 4 (l.outageAtReturn.map (·.toNat))

/-- The LINES part of READ HIRE: every field of R111 but the computed charges (R113). -/
def Hire.lineBytes (h : Hire) : List Byte :=
  be 2 h.number ++ be 1 h.state.code ++ be 3 h.badge ++ be 1 h.plan.val ++ be 3 h.deposit
    ++ optProgBytes h.preset ++ timeBytes h.openedAt ++ flagByte h.overdue ++ flagByte h.suspect
    ++ optTimeBytes h.closedAt ++ optBytes 2 h.closingPos ++ be 1 h.lines.length ++ h.lines.flatMap Line.bytes

/-- A line's frozen charges (R142). -/
def LineAccount.chargeBytes (l : LineAccount) : List Byte :=
  be 1 l.outcome.outcomeCode ++ be 3 l.minutes ++ be 3 l.gross ++ be 3 l.credited ++ be 3 l.charge

/-- A hire's frozen charges (R113, R142): the lines, the total and the balance are one optional field, under one presence
byte (DESIGN CHOICE, log entry 40). -/
def accountBytes (a : Option Account) : List Byte :=
  match a with
  | none => be 1 0
  | some a =>
    be 1 1 ++ be 1 a.lines.length ++ a.lines.flatMap LineAccount.chargeBytes ++ be 4 a.total
      ++ balanceBytes a.balance

/-- The CHARGES part of READ HIRE (R113). -/
def Hire.chargeBytes (h : Hire) : List Byte :=
  be 2 h.number ++ be 1 h.state.code ++ optBytes 2 h.closingPos ++ accountBytes h.account

/-- The record a READ HIRE selector finds (R113). -/
def State.findHire (s : State) (sel : HireSelector) : Option Hire :=
  match sel with
  | .byNumber n => s.hire n
  | .byOrder place => s.hires.records[place - 1]?

/-- The result of a READ HIRE that finds nothing (R113). -/
def HireSelector.missing (sel : HireSelector) : Result :=
  match sel with
  | .byNumber _ => .unknown
  | .byOrder _ => .empty

/-- READ HIRE (selector, value, part): R113. -/
def readHire (sel : HireSelector) (lines : Bool) (s : State) : Reply :=
  match s.findHire sel with
  | some h => ⟨s, .ok, (if lines then h.lineBytes else h.chargeBytes) ++ s.hireCounts⟩
  | none => ⟨s, sel.missing, s.hireCounts⟩

/-- READ HIRE (R113). A selector or part that is no name, or a value out of range, is refused MALFORMED without the counts that
R113 gives every answer: the model's choice (DESIGN CHOICE, log entry 46). -/
def execReadHire (p : Port) (params : List Byte) (s : State) : Host.Outcome State Fault Refusal :=
  .next (s.serve p 0x35#8 params (withParams (readHireParams? params) fun a => readHire a.1 a.2))

/-- FIND BADGE (badge): R125. -/
def findBadge (badge : Nat) (s : State) : Reply :=
  match s.badgeHire badge with
  | some h => ⟨s, .ok, be 2 h.number ++ be 1 h.state.code ++ be 1 h.lines.length ++ be 1 h.outCount⟩
  | none => s.refuse .unknown

/-- FIND BADGE (R125). -/
def execFindBadge (p : Port) (params : List Byte) (s : State) : Host.Outcome State Fault Refusal :=
  .next (s.serve p 0x3D#8 params (withParams (badgeParam? params) findBadge))

/-! ### Demand and the overdue check -/

/-- The OUT lines of OPEN hires with preset `p` (R128, R129). -/
def State.demandOf (s : State) (p : Prog) : Nat :=
  ((s.hires.records.filter fun h => h.state == .opened && h.preset == some p).map Hire.outCount).sum

/-- Every demand count recomputed from the table (R129). -/
def State.recomputeDemand (s : State) : State :=
  { s with programs := s.programs.mapIdx fun p r => { r with demand := s.demandOf p } }

/-- R130 on one hire. -/
def State.checkOverdue (s : State) (h : Hire) : State :=
  let limit := (s.tariff h.plan).hireLimit
  if h.state = .opened ∧ ¬ h.overdue ∧ h.openedAt.abs + limit * 3600 ≤ s.session.clock.abs then
    (s.modifyHire h.number fun h => { h with overdue := true }).notify .hireOverdue h.number h.plan.val limit
      h.outCount
  else s

/-- R130, in ascending order of hire number. -/
def State.checkAllOverdue (s : State) : State := s.hires.records.foldl State.checkOverdue s

end Sys2Proof.Machine
end

