-- ==== Sys2Proof/Machine/Racks.lean ====
section
/-! DEFINITION. The rack events (spec/06, R101 to R104): RACK SEATED with its implicit return and displacement, RACK
BATTERY and RACK REMOVED. -/

namespace Sys2Proof.Machine

/-- A racked receiver leaves its slot and becomes UNRACKED: its mark is cleared and RECEIVER_UNRACKED is queued with
the cause given, 1 DISPLACED or 2 REMOVED (R101, R104). -/
def State.pullFromRack (s : State) (m : Nat) (k : Fin 512) (cause : Nat) : State :=
  (((s.clearMark m).freeSlot m).setReceiverState m .unracked).notify .receiverUnracked m (slotNo k) cause 0

/-- R101 step 2: another receiver that the map names in slot `k` is freed from it. -/
def State.displace (s : State) (n : Nat) (k : Fin 512) : State × Option Nat :=
  match s.registry.slots.get k with
  | none => (s, none)
  | some m =>
    if m = n then (s, none)
    else
      match s.receiver m with
      | none => (s.setSlot k none, some m)
      | some r => (if r.state.racked then s.pullFromRack m k 1 else s.freeSlot m, some m)

/-- R101 steps 4 and 5: the battery as reported, and the state that R102's table gives from the state the receiver
had when the command was taken. -/
def Receiver.settle (threshold battery : Nat) (taken : ReceiverState) (r : Receiver) : Receiver :=
  let r := { r with battery := some battery }
  match taken with
  | .withdrawn => r
  | .lost => { r.place threshold with hire := none }
  | .ready | .charging | .onHire | .unracked => r.place threshold

/-- R101 step 1: the implicit return of an ON_HIRE receiver (R102, R121). -/
def State.implicitReturn (s : State) (r : Receiver) : State × Option LineOutcome :=
  match r.state with
  | .onHire =>
    let (s, x) := s.returnReceiver r
    (s, some x)
  | .ready | .charging | .unracked | .lost | .withdrawn => (s, none)

/-- R101 steps 3 to 6. -/
def State.seatAndPlace (s : State) (n : Nat) (k : Fin 512) (battery : Nat) (taken : ReceiverState) : State :=
  ((s.seat n k).modifyReceiver n fun r => r.settle s.registry.threshold battery taken).clearMark n

/-- The result of RACK SEATED (R101, R102). -/
def seatedResult (taken : ReceiverState) (clamped : Bool) : Result :=
  if taken = .lost then .recovered else if clamped then .okClamped else .ok

/-- The optional fields of RACK SEATED's answer: the implicit return's hire, whether it closed and which way, and for a
receiver that was LOST the clamped indicator (R101, R102, R126). No rule gives the indicator's place among R102's fields:
that it comes last, as an optional field with its presence byte in every answer, is the model's choice (DESIGN CHOICE, log
entry 32). The hire, the flag and the way are three optional fields, each with its own presence byte (DESIGN CHOICE, log
entry 40). -/
def seatedBytes (x : Option LineOutcome) (taken : ReceiverState) (clamped : Bool) : List Byte :=
  optBytes 2 (x.map (·.hire)) ++ optBytes 1 (x.map fun o => if o.way.isSome then 1 else 0)
    ++ optBytes 1 ((x.bind (·.way)).map CloseWay.code)
    ++ optBytes 1 (if taken = .lost then some (if clamped then 1 else 0) else none)

/-- The state code that a receiver's record now gives. -/
def State.receiverCode (s : State) (n : Nat) : Nat :=
  match s.receiver n with
  | some r => r.state.code
  | none => 0

/-- RACK SEATED (receiver, slot, battery): R101, R102. The slot and the battery are sent without a presence byte, since
they are present in every such answer (DESIGN CHOICE, log entry 33). -/
def rackSeated (n : Nat) (k : Fin 512) (b : Nat) (s : State) : Reply :=
  match s.receiver n with
  | none => s.refuse .unknown
  | some r =>
    let battery := min 100 b
    let clamped := decide (100 < b)
    let (s, x) := s.implicitReturn r
    let (s, displaced) := s.displace n k
    let s := s.seatAndPlace n k battery r.state
    ⟨s, seatedResult r.state clamped, be 1 (s.receiverCode n) ++ be 2 (slotNo k) ++ be 1 battery
      ++ optBytes 2 displaced ++ seatedBytes x r.state clamped⟩

/-- RACK SEATED (R101). -/
def execRackSeated (p : Port) (params : List Byte) (s : State) : Host.Outcome State Fault Refusal :=
  .next (s.serve p 0x37#8 params (withParams (seatedParams? params) fun a => rackSeated a.1 a.2.1 a.2.2))

/-- A receiver at a battery report (R103). -/
def Receiver.report (threshold battery : Nat) (r : Receiver) : Receiver :=
  ({ r with battery := some battery }).replace threshold

/-- RACK BATTERY (receiver, battery): R103. The battery is sent without a presence byte, since it is present in every such
answer (DESIGN CHOICE, log entry 33). -/
def rackBattery (n b : Nat) (s : State) : Reply :=
  match s.receiver n with
  | none => s.refuse .unknown
  | some r =>
    let battery := min 100 b
    let f := Receiver.report s.registry.threshold battery
    ⟨s.modifyReceiver n f, if 100 < b then .okClamped else .ok, be 1 (f r).state.code ++ be 1 battery⟩

/-- RACK BATTERY (R103). -/
def execRackBattery (p : Port) (params : List Byte) (s : State) : Host.Outcome State Fault Refusal :=
  .next (s.serve p 0x38#8 params (withParams (batteryParams? params) fun a => rackBattery a.1 a.2))

/-- RACK REMOVED's effect on the receiver the map names (R104). -/
def State.pull (s : State) (m : Nat) (k : Fin 512) : State :=
  match s.receiver m with
  | none => s.setSlot k none
  | some r => if r.state.racked then s.pullFromRack m k 2 else (s.clearMark m).freeSlot m

/-- RACK REMOVED (slot): R104. -/
def rackRemoved (k : Fin 512) (s : State) : Reply :=
  match s.registry.slots.get k with
  | none => s.refuse .notActive
  | some m =>
    let t := s.pull m k
    ⟨t, .ok, be 2 m ++ be 1 (t.receiverCode m)⟩

/-- RACK REMOVED (R104). -/
def execRackRemoved (p : Port) (params : List Byte) (s : State) : Host.Outcome State Fault Refusal :=
  .next (s.serve p 0x39#8 params (withParams (slotParam? params) rackRemoved))

end Sys2Proof.Machine
end

