-- ==== Sys2Proof/Machine/Link.lean ====
section
/-! DEFINITION. The Distribution Link (spec/05): the choice of a key, the records and their bytes (R180), READY, the
stall watch's expiry and RESYNC DISTRIBUTION. -/

namespace Sys2Proof.Machine

/-! ### Records -/

/-- The source bytes of a program route record: source kind, booth and position (R180). -/
def sourceBytes (d : Option DeskId) : List Byte :=
  match d with
  | none => be 1 1 ++ be 1 0 ++ be 1 0
  | some d => be 1 2 ++ deskBytes d

/-- The feed bytes of a desk feed record: feed kind and program (R180). -/
def feedKindBytes (x : Source) : List Byte := be 1 (if x = 0 then 1 else 2) ++ be 1 x.val

/-- A record's bytes (R180). -/
def Record.bytes (r : Record) : List Byte :=
  match r with
  | .plan bank budget carried =>
    be 1 1 ++ be 1 bank.val ++ be 1 budget ++ be 1 carried.length
      ++ carried.flatMap fun e => be 1 e.1.val ++ be 1 e.2.code
  | .route p source level radiation =>
    be 1 2 ++ be 1 p.val ++ sourceBytes source ++ be 1 level.code ++ be 1 radiation.code
  | .feed d x => be 1 3 ++ deskBytes d ++ feedKindBytes x

/-- A key of the pending set (R81). -/
inductive Key
  | plan
  | program (p : Prog)
  | desk (i : Fin 72)
deriving DecidableEq, Repr

/-- The key the link chooses: the plan key, else the lowest program key, else the first desk key (R82). -/
def Link.choose (k : Link) : Option Key :=
  if k.planKey then some .plan
  else
    match (List.finRange 32).find? fun p => k.programKeys.get p with
    | some p => some (.program p)
    | none => ((List.finRange 72).find? fun i => k.deskKeys.get i).map .desk

/-- The pending set with a key cleared (R82). -/
def Link.clearKey (k : Link) (key : Key) : Link :=
  match key with
  | .plan => { k with planKey := false }
  | .program p => { k with programKeys := k.programKeys.set p false }
  | .desk i => { k with deskKeys := k.deskKeys.set i false }

/-- The record built from the values that a key names, as they stand (R83 to R86). -/
def State.buildRecord (s : State) (key : Key) : Record :=
  match key with
  | .plan => .plan s.planner.bank s.budget (carriedList s.programs)
  | .program p =>
    let r := s.program p
    .route p r.derivedSource r.level r.radiation
  | .desk i => .feed (deskAt i) (s.booth.desks.get i).feed

/-- A send opportunity taken, where one arises (R82). READY is read as asserted at the record's start (R87). -/
def State.takeOpportunity (s : State) : State :=
  if s.link.opportunity then
    match s.link.choose with
    | some key =>
      let r := s.buildRecord key
      s.updateLink fun k => { k.clearKey key with phase := .sending r, readyRead := true }
    | none => s
  else s

/-! ### The partner and the watch -/

/-- The pin READY takes a level. R91's level as last read then follows it in IDLE, pending key or not, and stays in HELD and
while a record is sent: R87 names the record boundaries alone, and this is the model's choice (DESIGN CHOICE, log entry
38). -/
def Link.seeReady (k : Link) (level : Bool) : Link :=
  { k with ready := level, readyRead := if k.phase = .idle then level else k.readyRead }

/-- READY_ASSERT (R87): an IDLE link with a key pending starts a record at once. -/
def execReadyAssert (s : State) : Host.Outcome State Fault Refusal :=
  .next <|
    if s.powered then (s.updateLink fun k => k.seeReady true).takeOpportunity
    else { s with link := { s.link with ready := true } }

/-- READY_DEASSERT (R87, R88). -/
def execReadyDeassert (s : State) : Host.Outcome State Fault Refusal :=
  .next <|
    if s.powered then s.updateLink fun k => k.seeReady false
    else { s with link := { s.link with ready := false } }

/-- SEND_OPPORTUNITY (R82, R90): an opportunity that stands is taken. The idle step sends this event, before any time
passes, where an event has left an opportunity standing (`State.idle`; DESIGN CHOICE, log entry 12). -/
def execSendOpportunity (s : State) : Host.Outcome State Fault Refusal :=
  .next (if s.powered then s.takeOpportunity else s)

/-- The transmission of record `r` completes: any episode ends, READY is read, and the link is IDLE (R82, R87,
R88). -/
def Link.complete (k : Link) (r : Record) : Link :=
  { k with phase := .idle, readyRead := k.ready, episode := false, lastSent := r.bytes }

/-- TRANSMISSION_COMPLETE (R82): the next record follows at once where READY is asserted and a key is pending. -/
def execTransmissionComplete (s : State) : Host.Outcome State Fault Refusal :=
  .next <|
    match s.powered, s.link.phase with
    | true, .sending r => (s.updateLink fun k => k.complete r).takeOpportunity
    | _, _ => s

/-- STALL_WATCH_EXPIRY (R88): the watch has reached 2000 ms and, no episode being open, opens one and raises DL_STALL.
Otherwise it is no event (log entry 14). -/
def execStallWatchExpiry (s : State) : Host.Outcome State Fault Refusal :=
  .next <|
    if s.stallDue then
      let s := { s with link := { s.link with episode := true } }
      s.raiseFault .dlStall s.link.pendingCount
    else s

/-- All 105 keys pending (R89, R90). -/
def Link.setAll (k : Link) : Link :=
  { k with planKey := true, programKeys := .replicate 32 true, deskKeys := .replicate 72 true }

/-- RESYNC DISTRIBUTION: R89. -/
def resyncDistribution (_ : Unit) (s : State) : Reply :=
  ⟨s.updateLink Link.setAll, .ok, be 1 (105 - s.link.pendingCount)⟩

/-- RESYNC DISTRIBUTION (R89). -/
def execResyncDistribution (p : Port) (params : List Byte) (s : State) : Host.Outcome State Fault Refusal :=
  .next (s.serve p 0x66#8 params (withParams (noParams? params) resyncDistribution))

end Sys2Proof.Machine
end

