-- ==== Sys2Proof/Machine/Retention.lean ====
section
/-! DEFINITION. Power, reset and start-up (spec/11, R185 to R189): the reset of the volatile state, the cold start, the
steps that end a start-up, and the events of the supplies and of RESET_N. -/

namespace Sys2Proof.Machine

/-! ### The reset of the volatile state (R186, R188) -/

/-- The Booth Section's volatile fields reset; every interpreter entry loses its current desk, which is no part of the
retained group (R5, R7, R25, R185). -/
def BoothSection.volatileReset (b : BoothSection) : BoothSection :=
  { b with
    desks := .replicate 72 .reset
    requests := .replicate 24 none
    interpreters := b.interpreters.map fun e => { e with desk := none } }

/-- The Carrier Planner's volatile fields reset, the bank read from the health lines (R64, R68, R71). -/
def Planner.volatileReset (k : Planner) (programs : Table Program 32) : Planner :=
  { k with
    bank := k.lines
    candidate := none
    slotsInUse := 0
    lastPass := .start k.lines programs
    hold := none }

/-- The stocktake and its marks reset (R92, R107). -/
def Registry.volatileReset (r : Registry) : Registry :=
  { r with receivers := r.receivers.map fun x => { x with mark := false }, stocktake := .idle }

/-- The Distribution Link reset (R90); the READY pin and the record the partner last took whole are not the link's to
reset. -/
def Link.volatileReset (k : Link) : Link := { Link.reset k.ready with lastSent := k.lastSent }

/-- Every volatile item at its reset value, but for the tick watch and the start-up state (R186, R188). -/
def State.volatileReset (s : State) : State :=
  let programs := s.programs.map Program.volatileReset
  { s with
    booth := s.booth.volatileReset
    programs := programs
    planner := s.planner.volatileReset programs
    link := s.link.volatileReset
    registry := s.registry.volatileReset
    session := { s.session with state := .setup }
    ports := .reset s.ports.wire
    faults := .reset }

/-! ### The cold start (R187) -/

/-- Every retained group replaced by its default, its word matching, and the supply marker not yet set: it is set at
completion (R185, R186, R187, R189). -/
def State.coldStart (s : State) : State :=
  let programs : Table Program 32 := .ofFn .default
  { s with
    booth := { s.booth with configs := .replicate 24 .default, interpreters := [] }
    programs := programs
    planner := { s.planner with budgets := defaultBudgets, lastPass := .start s.planner.bank programs }
    registry := ⟨[], .replicate 512 none, 80, s.registry.stocktake⟩
    hires := ⟨[], 1⟩
    settlement := ⟨.replicate 8 .default, []⟩
    session := { s.session with
      clock := ⟨0, 0⟩, valid := false, restartCount := 1, restartCause := .coldStart, dayNumber := 1,
      counters := .zero, summary := none }
    retention := ⟨false, .replicate 10 true⟩ }

/-- The lowest group found failed: 0 for the supply marker, 1 to 10 for a check word; none when all is intact
(R185 to R187). -/
def Retention.failedGroup (r : Retention) : Option Nat :=
  if r.marker then ((List.finRange 10).find? fun g => !r.intact.get g).map fun g => g.val + 1 else some 0

/-! ### The end of a start-up (R186) -/

/-- R186 step 5: the marker is set, STARTING is cleared and the Distribution Link becomes IDLE and reads READY (log entry
38). With READY asserted, the first send opportunity follows at once (R90): it stands then, and `State.idle` brings it
(log entry 12). -/
def State.complete (s : State) : State :=
  ({ s with startup := .done, retention := { s.retention with marker := true } }).updateLink fun k =>
    { k with phase := .idle, readyRead := k.ready }

/-- R186 step 6, the faults held during start-up: raised in the order in which they arose. -/
def State.raiseHeld (s : State) : State :=
  let held := s.faults.held
  held.foldl (fun s f => s.raiseNow f.1 f.2) { s with faults := { s.faults with held := [] } }

/-- R186 step 6, the end: STARTED with the restart cause and count. -/
def State.started (s : State) : State :=
  s.notify .started s.session.restartCause.code s.session.restartCount.toNat 0 0

/-- R186 steps 3 and 4: demand, the derivation pass, the allocation pass. -/
def State.startPasses (s : State) : State := (s.recomputeDemand.derivationPass).allocationPass

/-! ### The supplies -/

/-- POWER_ON (R186, R1, R71, R158): the timebase is 0, every volatile item takes its reset value, and the start-up check
begins. With RESET_N asserted at POWER_ON, the check waits for the release (DESIGN CHOICE, log entry 25). -/
def execPowerOn (s : State) : Host.Outcome State Fault Refusal :=
  .next
    { ({ s with now := 0, powered := true, startup := .checking, checkSince := 0 }).volatileReset with
      session := { s.session with state := .setup, tickSince := 0, tickLost := false } }

/-- VBAK_FAILURE (R185): with main power off, the retained domain is not held and the marker reads clear. -/
def execVbakFailure (s : State) : Host.Outcome State Fault Refusal :=
  .next (if s.powered then s else { s with retention := { s.retention with marker := false } })

/-! ### Start-up and external reset -/

/-- R186 step 2: the outcome of the check, and the clock's validity cleared (R155). -/
def State.checkOutcome (s : State) (failed : Option Nat) : State :=
  let s := if failed.isSome then s.coldStart else s.setRestart (s.session.restartCount + 1) .powerOn
  s.setClock s.session.clock false

/-- The power-on start-up that runs is cut short by the loss of main power or by RESET_N. The free value says whether it had
carried out step 2, and what that wrote to the retained domain then stands; a cut by RESET_N leaves no restart counted,
since the check of the start-up that begins again decides once (R189; DEDUCED, log entry 23). -/
def State.cutStartUp (s : State) (byReset : Bool) : State :=
  let failed := s.retention.failedGroup
  let t := { s with startUpsCut := s.startUpsCut + 1 }
  if (failed.isSome || !byReset) && Config.cutPastOutcome s.startUpsCut then t.checkOutcome failed else t

/-- MAIN_POWER_LOSS (R155, R189): the retained domain and the clock keep what they hold, and a start-up that was running
is abandoned with the faults it held. -/
def execMainPowerLoss (s : State) : Host.Outcome State Fault Refusal :=
  .next <|
    let t := if s.operating && s.startup == .checking then s.cutStartUp false else s
    { t with powered := false, faults := { t.faults with held := [] } }

/-- R187: RETENTION_LOST is raised after the held faults when a cold start was made. -/
def State.raiseRetentionLost (s : State) (failed : Option Nat) : State :=
  match failed with
  | some g => s.raiseNow .retentionLost g
  | none => s

/-- STARTUP_CHECK_COMPLETE (R186, R187): steps 2 to 6 of a power-on start-up. While RESET_N is asserted no check runs, and
it is no event (log entries 14 and 25). R186 bounds the check by 300 ms and does not say when within them it completes: the
model takes the event at whatever count it comes, and brings it itself at 300 ms (`State.checkDue`; DESIGN CHOICE, log
entry 44). -/
def execStartupCheckComplete (s : State) : Host.Outcome State Fault Refusal :=
  .next <|
    if s.operating && s.startup == .checking then
      let failed := s.retention.failedGroup
      let s := ((s.checkOutcome failed).startPasses).complete.restartTickWatch
      ((s.raiseHeld).raiseRetentionLost failed).started
    else s

/-- The volatile reset of an external reset, with its restart count and cause unless a power-on start-up is running, which
is then cut short (R159, R188, R189). -/
def State.externalReset (s : State) : State :=
  match s.startup with
  | .checking => (s.cutStartUp true).volatileReset
  | .external | .done =>
    let s := s.volatileReset.setRestart (s.session.restartCount + 1) .external
    { s with startup := .external }

/-- EXTERNAL_RESET (R188): RESET_N is asserted. It is no event while RESET_N is asserted already. -/
def execExternalReset (s : State) : Host.Outcome State Fault Refusal :=
  .next <|
    if s.resetAsserted then s
    else if s.powered then { s.externalReset with resetAsserted := true }
    else { s with resetAsserted := true }

/-- The health lines read, and the debounce free to run (R71). -/
def State.readLines (s : State) : State :=
  { s with planner := { s.planner with bank := s.planner.lines, candidate := none } }

/-- RESET_RELEASE (R188, R189): the bank is read from the lines; steps 3 to 6 of R186 follow, but a power-on start-up
begins again with its check; so does one that POWER_ON began while RESET_N was asserted (DESIGN CHOICE, log entry 25). -/
def execResetRelease (s : State) : Host.Outcome State Fault Refusal :=
  .next <|
    if s.resetAsserted then
      let t := { s with resetAsserted := false }
      if s.powered then
        match s.startup with
        | .checking => { t.readLines with checkSince := t.now }
        | .external | .done => (((t.readLines.startPasses).complete).raiseHeld).started
      else t
    else s

end Sys2Proof.Machine
end

