-- ==== Sys2Proof/Machine/Session.lean ====
section
/-! DEFINITION. Session and Clock (spec/09): the session commands, SET CLOCK, the tick and its loss, DAY CLOSE and READ
DAY SUMMARY; and the Program Table's part of a tick (R79). -/

namespace Sys2Proof.Machine

/-! ### The session commands -/

/-- A session command that is taken (R152): SESSION_CHANGED to each port, and the answer with the old and the new
state. -/
def State.changeSession (s : State) (new : Session) : Reply :=
  let old := s.session.state
  let s := (s.setSession new).notify .sessionChanged old.code new.code 0 0
  ⟨s, .ok, be 1 old.code ++ be 1 new.code⟩

/-- OPEN SESSION: R152. -/
def openSession (_ : Unit) (s : State) : Reply :=
  if s.session.state ≠ .setup then s.refuse .locked
  else if s.planner.hold.isSome then s.refuse .held
  else s.changeSession .live

/-- OPEN SESSION (R152). -/
def execOpenSession (p : Port) (params : List Byte) (s : State) : Host.Outcome State Fault Refusal :=
  .next (s.serve p 0x50#8 params (withParams (noParams? params) openSession))

/-- RECESS: R152, R153. -/
def recess (_ : Unit) (s : State) : Reply :=
  if s.session.state ≠ .live then s.refuse .locked else s.leaveLive.changeSession .recess

/-- RECESS (R152). -/
def execRecess (p : Port) (params : List Byte) (s : State) : Host.Outcome State Fault Refusal :=
  .next (s.serve p 0x51#8 params (withParams (noParams? params) recess))

/-- RESUME: R152, R153. -/
def resume (_ : Unit) (s : State) : Reply :=
  if s.session.state ≠ .recess then s.refuse .locked else s.changeSession .live

/-- RESUME (R152). -/
def execResume (p : Port) (params : List Byte) (s : State) : Host.Outcome State Fault Refusal :=
  .next (s.serve p 0x52#8 params (withParams (noParams? params) resume))

/-- END SESSION: R152, R153. -/
def endSession (_ : Unit) (s : State) : Reply :=
  match s.session.state with
  | .setup => s.refuse .locked
  | .live => s.leaveLive.changeSession .setup
  | .recess => s.changeSession .setup

/-- END SESSION (R152). -/
def execEndSession (p : Port) (params : List Byte) (s : State) : Host.Outcome State Fault Refusal :=
  .next (s.serve p 0x53#8 params (withParams (noParams? params) endSession))

/-! ### SET CLOCK -/

/-- Of two OPEN hires, the one that R157 compares with: the later opened time and, of equal times, the lower
number. -/
def laterOpened (best : Option Hire) (h : Hire) : Option Hire :=
  match best with
  | none => some h
  | some b =>
    if b.openedAt.abs < h.openedAt.abs then some h
    else if b.openedAt.abs = h.openedAt.abs ∧ h.number < b.number then some h
    else some b

/-- The OPEN hire with the latest opened time, if any hire is OPEN (R157). -/
def State.latestOpen (s : State) : Option Hire :=
  (s.hires.records.filter fun h => h.state == .opened).foldl laterOpened none

/-- The hire that a loaded clock value steps back behind, if there is one (R157). -/
def State.steppedBack (s : State) (loaded : HallTime) : Option Hire :=
  s.latestOpen.filter fun h => loaded.abs < h.openedAt.abs

/-- R156 steps 1 to 4. -/
def State.loadClock (s : State) (loaded : HallTime) : State :=
  let t := (s.setClock loaded true).restartTickWatch
  match s.steppedBack loaded with
  | some h => t.raiseFault .clockStepBack h.number
  | none => t

/-- SET CLOCK (day, second): R156. -/
def setClock (day second : Nat) (s : State) : Reply :=
  let loaded : HallTime := ⟨min 9999 day, min 86399 second⟩
  ⟨s.loadClock loaded, if loaded = ⟨day, second⟩ then .ok else .okClamped,
    be 2 loaded.day ++ be 3 loaded.second ++ timeBytes s.session.clock ++ flagByte s.session.valid
      ++ flagByte (s.steppedBack loaded).isSome⟩

/-- SET CLOCK (R156). -/
def execSetClock (p : Port) (params : List Byte) (s : State) : Host.Outcome State Fault Refusal :=
  .next (s.serve p 0x5C#8 params (withParams (clockParams? params) fun a => setClock a.1 a.2))

/-! ### The tick -/

/-- The clock one second on; it holds at day 9999 second 86399 (R154). -/
def HallTime.tick (t : HallTime) : HallTime :=
  if t.second < 86399 then ⟨t.day, t.second + 1⟩
  else if t.day < 9999 then ⟨t.day + 1, 0⟩
  else t

/-- Session and Clock's part of a tick: the clock advances and the watch restarts (R154, R158). -/
def State.clockTick (s : State) : State :=
  (s.setClock s.session.clock.tick s.session.valid).restartTickWatch

/-- The Program Table's part of a tick: in LIVE, every SHED program counts one outage second, wrapping (R79). -/
def State.outageTick (s : State) : State :=
  if s.session.state = .live then
    s.writePrograms fun _ r => if r.radiation = .shed then { r with outage := r.outage + 1 } else r
  else s

/-- TICK (R154, R155). While a start-up check runs or main power is off no tick is taken; through an external reset and
its start-up the clock and the watch alone take it. That none is taken either while RESET_N is asserted over a power-on
start-up whose check has not completed, where R155 says one thing of the check and another of RESET_N, is the model's
choice (DESIGN CHOICE, log entry 43). -/
def execTick (s : State) : Host.Outcome State Fault Refusal :=
  .next <|
    match s.powered, s.startup with
    | false, _ => s
    | true, .checking => s
    | true, .external => s.clockTick
    | true, .done => s.clockTick.boothTick.outageTick.checkAllOverdue

/-- TICK_WATCH_EXPIRY (R158): the watch has reached 3000 ms while TICKING. Otherwise it is no event (log entry 14). -/
def execTickWatchExpiry (s : State) : Host.Outcome State Fault Refusal :=
  .next <|
    if s.tickWatchDue then
      let s := { s with session := { s.session with tickLost := true } }
      (s.setClock s.session.clock false).raiseFault .tickLost s.session.clock.day
    else s

/-! ### The accounting day -/

/-- A program's day outage (R161). -/
def Program.dayOutage (r : Program) : BitVec 32 := r.outage - r.outageBase

/-- The summary that DAY CLOSE builds (R161). -/
def State.daySummary (s : State) : DaySummary :=
  ⟨s.session.dayNumber, s.session.clock, s.session.valid, s.session.counters, s.programs.map Program.dayOutage,
    s.booth.interpreters.length⟩

/-- An interpreter entry's counts moved to the previous day (R162 step 3). -/
def Interpreter.moveDay (e : Interpreter) : Interpreter :=
  { e with prevOnAir := e.onAir, prevTurns := e.turns, onAir := 0, turns := 0 }

/-- Whether a moved entry stays: it has a current desk or a count (R162 step 4). -/
def Interpreter.stays (e : Interpreter) : Bool := e.desk.isSome || e.prevOnAir != 0 || e.prevTurns != 0

/-- The accounting day number after `n`, wrapping from 9999 to 1 (R162 step 5). -/
def nextDayNumber (n : Nat) : Nat := if 9999 ≤ n then 1 else n + 1

/-- The accounting day, its counters and summary written: retained group 10. -/
def State.setDay (s : State) (day : Nat) (counters : DayCounters) (summary : Option DaySummary) : State :=
  ({ s with session :=
      { s.session with dayNumber := day, counters := counters, summary := summary } }).rewrite 9

/-- The interpreter entries that a DAY CLOSE keeps (R162 steps 3 and 4). -/
def State.keptInterpreters (s : State) : List Interpreter :=
  (s.booth.interpreters.map Interpreter.moveDay).filter Interpreter.stays

/-- R161 and R162 steps 1 to 5. -/
def State.closeDay (s : State) : State :=
  let summary := s.daySummary
  let kept := s.keptInterpreters
  let s := s.writePrograms fun _ r => { r with outageBase := r.outage }
  let s := s.setInterpreters kept
  s.setDay (nextDayNumber s.session.dayNumber) .zero (some summary)

/-- DAY CLOSE: R161, R162. -/
def dayClose (_ : Unit) (s : State) : Reply :=
  if s.session.state = .live then s.refuse .locked
  else ⟨s.closeDay, .ok, be 2 s.session.dayNumber ++ be 2 (nextDayNumber s.session.dayNumber)
    ++ be 1 (s.booth.interpreters.length - s.keptInterpreters.length)⟩

/-- DAY CLOSE (R161). -/
def execDayClose (p : Port) (params : List Byte) (s : State) : Host.Outcome State Fault Refusal :=
  .next (s.serve p 0x5D#8 params (withParams (noParams? params) dayClose))

/-- The eight day counters (R160, R163). -/
def DayCounters.bytes (c : DayCounters) : List Byte :=
  be 4 c.hiresOpened ++ be 4 c.hiresSettled ++ be 4 c.issued ++ be 4 c.returned ++ be 4 c.writtenOff
    ++ be 4 c.charges ++ be 4 c.refunds ++ be 4 c.due

/-- A summary's fields (R161, R163). -/
def DaySummary.bytes (d : DaySummary) : List Byte :=
  be 2 d.day ++ timeBytes d.closing ++ flagByte d.valid ++ d.counters.bytes
    ++ (d.outages.rows.flatMap fun x => be 4 x.toNat) ++ be 1 d.entries

/-- READ DAY SUMMARY: R163. -/
def readDaySummary (_ : Unit) (s : State) : Reply :=
  let present := be 2 s.session.dayNumber ++ s.session.counters.bytes
  match s.session.summary with
  | some d => ⟨s, .ok, d.bytes ++ present⟩
  | none => ⟨s, .empty, present⟩

/-- READ DAY SUMMARY (R163). -/
def execReadDaySummary (p : Port) (params : List Byte) (s : State) : Host.Outcome State Fault Refusal :=
  .next (s.serve p 0x65#8 params (withParams (noParams? params) readDaySummary))

end Sys2Proof.Machine
end

