-- ==== Sys2Proof/Machine/Dispatch.lean ====
section
/-! DEFINITION. The one dispatch: each event of spec/opcode_table.json to its meaning. -/

namespace Sys2Proof.Machine

/-- The effect of an event on everything but the queue. -/
def exec (i : Instr) (s : State) : Host.Outcome State Fault Refusal :=
  match i with
  | .powerOn => Sys2Proof.Machine.execPowerOn s
  | .mainPowerLoss => Sys2Proof.Machine.execMainPowerLoss s
  | .startupCheckComplete => Sys2Proof.Machine.execStartupCheckComplete s
  | .externalReset => Sys2Proof.Machine.execExternalReset s
  | .resetRelease => Sys2Proof.Machine.execResetRelease s
  | .tick => Sys2Proof.Machine.execTick s
  | .tickWatchExpiry => Sys2Proof.Machine.execTickWatchExpiry s
  | .healthLineChange lines => Sys2Proof.Machine.execHealthLineChange lines s
  | .debounceExpiry => Sys2Proof.Machine.execDebounceExpiry s
  | .handoverExpiry booth => Sys2Proof.Machine.execHandoverExpiry booth s
  | .stocktakeExpiry => Sys2Proof.Machine.execStocktakeExpiry s
  | .readyAssert => Sys2Proof.Machine.execReadyAssert s
  | .readyDeassert => Sys2Proof.Machine.execReadyDeassert s
  | .sendOpportunity => Sys2Proof.Machine.execSendOpportunity s
  | .transmissionComplete => Sys2Proof.Machine.execTransmissionComplete s
  | .stallWatchExpiry => Sys2Proof.Machine.execStallWatchExpiry s
  | .requestTransaction p frame => Sys2Proof.Machine.execRequestTransaction p frame s
  | .fetchAnswer p => Sys2Proof.Machine.execFetchAnswer p s
  | .statusOnly p => Sys2Proof.Machine.execStatusOnly p s
  | .undefinedTransactionByte p byte => Sys2Proof.Machine.execUndefinedTransactionByte p byte s
  | .unknownCommand p code params => Sys2Proof.Machine.execUnknownCommand p code params s
  | .readStatus p params => Sys2Proof.Machine.execReadStatus p params s
  | .readNotice p params => Sys2Proof.Machine.execReadNotice p params s
  | .setNoticeMask p params => Sys2Proof.Machine.execSetNoticeMask p params s
  | .readCapability p params => Sys2Proof.Machine.execReadCapability p params s
  | .login p params => Sys2Proof.Machine.execLogin p params s
  | .logout p params => Sys2Proof.Machine.execLogout p params s
  | .micOn p params => Sys2Proof.Machine.execMicOn p params s
  | .micOff p params => Sys2Proof.Machine.execMicOff p params s
  | .cancelHandover p params => Sys2Proof.Machine.execCancelHandover p params s
  | .selectSource p params => Sys2Proof.Machine.execSelectSource p params s
  | .readDesk p params => Sys2Proof.Machine.execReadDesk p params s
  | .readBooth p params => Sys2Proof.Machine.execReadBooth p params s
  | .readProgram p params => Sys2Proof.Machine.execReadProgram p params s
  | .openHire p params => Sys2Proof.Machine.execOpenHire p params s
  | .addReceiver p params => Sys2Proof.Machine.execAddReceiver p params s
  | .returnReceiver p params => Sys2Proof.Machine.execReturnReceiver p params s
  | .writeOff p params => Sys2Proof.Machine.execWriteOff p params s
  | .changePreset p params => Sys2Proof.Machine.execChangePreset p params s
  | .readHire p params => Sys2Proof.Machine.execReadHire p params s
  | .readReceiver p params => Sys2Proof.Machine.execReadReceiver p params s
  | .rackSeated p params => Sys2Proof.Machine.execRackSeated p params s
  | .rackBattery p params => Sys2Proof.Machine.execRackBattery p params s
  | .rackRemoved p params => Sys2Proof.Machine.execRackRemoved p params s
  | .stocktakeStart p params => Sys2Proof.Machine.execStocktakeStart p params s
  | .stocktakeEnd p params => Sys2Proof.Machine.execStocktakeEnd p params s
  | .takeSettlement p params => Sys2Proof.Machine.execTakeSettlement p params s
  | .findBadge p params => Sys2Proof.Machine.execFindBadge p params s
  | .openSession p params => Sys2Proof.Machine.execOpenSession p params s
  | .recess p params => Sys2Proof.Machine.execRecess p params s
  | .resume p params => Sys2Proof.Machine.execResume p params s
  | .endSession p params => Sys2Proof.Machine.execEndSession p params s
  | .setBooth p params => Sys2Proof.Machine.execSetBooth p params s
  | .setProgram p params => Sys2Proof.Machine.execSetProgram p params s
  | .planHold p params => Sys2Proof.Machine.execPlanHold p params s
  | .planRelease p params => Sys2Proof.Machine.execPlanRelease p params s
  | .planAbandon p params => Sys2Proof.Machine.execPlanAbandon p params s
  | .setBankBudget p params => Sys2Proof.Machine.execSetBankBudget p params s
  | .setTariff p params => Sys2Proof.Machine.execSetTariff p params s
  | .setThreshold p params => Sys2Proof.Machine.execSetThreshold p params s
  | .setClock p params => Sys2Proof.Machine.execSetClock p params s
  | .dayClose p params => Sys2Proof.Machine.execDayClose p params s
  | .enrolReceiver p params => Sys2Proof.Machine.execEnrolReceiver p params s
  | .withdrawReceiver p params => Sys2Proof.Machine.execWithdrawReceiver p params s
  | .reinstateReceiver p params => Sys2Proof.Machine.execReinstateReceiver p params s
  | .deleteReceiver p params => Sys2Proof.Machine.execDeleteReceiver p params s
  | .readFaults p params => Sys2Proof.Machine.execReadFaults p params s
  | .clearFaults p params => Sys2Proof.Machine.execClearFaults p params s
  | .readInterpreter p params => Sys2Proof.Machine.execReadInterpreter p params s
  | .readDaySummary p params => Sys2Proof.Machine.execReadDaySummary p params s
  | .resyncDistribution p params => Sys2Proof.Machine.execResyncDistribution p params s
  | .portReset p params => Sys2Proof.Machine.execPortReset p params s
  | .readPlan p params => Sys2Proof.Machine.execReadPlan p params s
  | .readTariff p params => Sys2Proof.Machine.execReadTariff p params s
  | .vbakFailure => Sys2Proof.Machine.execVbakFailure s

end Sys2Proof.Machine
end

