-- ==== Sys2Proof/Machine/Step.lean ====
section
/-! DEFINITION. One step: the command at the front of the queue is taken and run; and what the host asks of a word of
the opcode table. -/

namespace Sys2Proof.Machine

/-- One step. The command at the front of the queue is run with the queue's rest (log entry 1). With nothing waiting,
a send opportunity that stands comes up, or a request in a port's slot is handed to its block, or else a millisecond
passes: `State.idle` (R1, R82, R167; DESIGN CHOICE, log entries 2, 12 and 45). -/
def step (s : State) : Host.Outcome State Fault Refusal :=
  match s.pending with
  | c :: rest => exec c { s with pending := rest }
  | [] => .next s.idle

/-- The state with the command that a word spells put at the front of its queue. No row of spec/opcode_table.json gives
bits, so no word spells one. -/
def State.withFetchWord (s : State) (nbits w : Nat) : State :=
  match decodeTableWord nbits w with
  | some c => { s with pending := c :: s.pending }
  | none => s

end Sys2Proof.Machine
end

