-- ==== Sys2Proof/Safety.lean ====
section
/-! DEFINITION. What a safe run of the K24 keeps, and the words in which the statements speak of a step: when a port can
take a request, what an answer leaves, and the laws of the device that hold at the end of every event. -/

namespace Sys2Proof.Machine

/-! ### A request and its answer -/

/-- Port `p` can take a request, and a start-up is over: main power is present, RESET_N is released, start-up has
completed, the request slot is empty and no self-reset waits (R165, R167, R177, R188). -/
abbrev State.canTake (s : State) (p : Port) : Prop :=
  s.powered = true ∧ s.resetAsserted = false ∧ s.startup = .done ∧ (s.port p).request = none ∧
    (p = .operator → s.ports.selfReset = false)

/-- The state in which port `p`'s request stands in its slot, ready to be handled: the status byte has been shifted out
and any unread answer discarded (R166, R167). -/
def State.taken (s : State) (p : Port) (code : Byte) (params : List Byte) : State :=
  (s.shiftOut p [s.statusByte p]).setPort p
    { s.port p with request := some ⟨code, params, s.nextTurn⟩, answer := none }

/-- The state with an answer in port `p`'s answer slot and its request slot empty, the status byte having been shifted
out at the start of the transaction (R166, R167). Nothing else differs. -/
def State.answered (s : State) (p : Port) (code : Byte) (r : Result) (fields : List Byte) : State :=
  (s.shiftOut p [s.statusByte p]).setPort p
    { s.port p with request := none, answer := some ⟨code, r, fields⟩ }

/-- In state `t` the answer slot of port `p` holds this answer and the request slot is empty. -/
abbrev State.holdsAnswer (t : State) (p : Port) (code : Byte) (r : Result) (fields : List Byte) : Prop :=
  (t.port p).answer = some ⟨code, r, fields⟩ ∧ (t.port p).request = none

/-- The event `c` brings this request to port `p`: it is the row of the command, or a request transaction with a whole
frame, whatever follows the declared parameters (R167, R178; log entry 5). -/
def Brings (c : Instr) (p : Port) (code : Byte) (params : List Byte) : Prop :=
  (c.wellFormed = true ∧ requestOf c = some (p, code, params)) ∨
    ∃ len more, c = .requestTransaction p (code :: len :: (params ++ more)) ∧ params.length = len.toNat ∧ len.toNat ≤ 250

/-- Every request that waits in a slot has passed its port's checks (R167, R169). -/
abbrev State.waitingPassed (s : State) : Prop :=
  ∀ p r, (s.port p).request = some r → s.portCheck p r.code r.params = none

/-- The bytes of an optional one-byte field: absent or present (R170). -/
abbrev OptionalByte (bs : List Byte) : Prop := bs = [0x00#8] ∨ ∃ x, bs = [0x01#8, x]

/-- A notice offered to a port joins its queue when its kind is in the mask and the queue has room, and the queue
stays as it is otherwise (R174). -/
def PortState.joined (v : PortState) (n : Notice) : List Notice :=
  if n.kind ∈ v.mask ∧ v.queue.length < 16 then v.queue ++ [n] else v.queue

/-- The bytes of a list of receiver numbers, with its count (R115, R170). -/
def receiverList (l : List Nat) : List Byte := be 1 l.length ++ l.flatMap (be 2)

/-- The bytes of a list of notice kinds, with its count (R170, R176). -/
def kindList (l : List NoticeKind) : List Byte := be 1 l.length ++ l.flatMap fun k => be 1 k.code

/-- Fault flag codes (R184). -/
def FlagName.code (f : FlagName) : Nat :=
  match f with
  | .alertSeen => 1
  | .severeSeen => 2
  | .multipleSevere => 3

/-- The bytes of a list of fault flags, with its count (R170, R184). -/
def flagList (l : List FlagName) : List Byte := be 1 l.length ++ l.flatMap fun f => be 1 f.code

/-- A booth's two outputs are ones that SET BOOTH can carry: neither names Floor, and output B is present only beside a
different output A (R2, R3). -/
def Outputs.legal (x : Outputs) : Prop :=
  x.a ≠ some 0 ∧ x.b ≠ some 0 ∧ (x.b = none ∨ (x.a ≠ none ∧ x.a ≠ x.b))

/-- A label that SET PROGRAM can carry: three capitals A to Z, or "---" (R59). -/
def Label.legal (l : Label) : Prop :=
  l = .default ∨ ∀ c ∈ [l.c1, l.c2, l.c3], 0x41 ≤ c.toNat ∧ c.toNat ≤ 0x5A

/-- The five configuration fields of SET PROGRAM as its parameters carry them (R59, R170). -/
def ProgConfig.params (c : ProgConfig) : List Byte :=
  be 1 (if c.configured then 1 else 2) ++ [c.label.c1, c.label.c2, c.label.c3] ++ be 1 c.priority.code
    ++ be 1 c.quality.code ++ be 1 c.engagement.code

/-! ### Laws of the device -/

/-- A port's bounds: at most 16 notices, and only kinds that go to this port in the mask (R165, R174, R176). -/
abbrev PortState.ok (v : PortState) (p : Port) : Prop :=
  v.queue.length ≤ 16 ∧ ∀ k ∈ v.mask, k ∈ kindsOf p

/-- Every port keeps its bounds. -/
abbrev State.portsOk (s : State) : Prop :=
  s.ports.booth.ok .booth ∧ s.ports.hire.ok .hire ∧ s.ports.operator.ok .operator

/-- The tables keep their capacities: 512 hires, 64 settlement records, 2048 receivers, 96 interpreters (R7, R92,
R113, R144). -/
abbrev State.tablesOk (s : State) : Prop :=
  s.hires.records.length ≤ 512 ∧ s.settlement.queue.length ≤ 64 ∧ s.registry.receivers.length ≤ 2048 ∧
    s.booth.interpreters.length ≤ 96

/-- A booth's window and turn limit are within the ranges of R2. -/
abbrev BoothConfig.inRange (c : BoothConfig) : Prop :=
  5 ≤ c.window ∧ c.window ≤ 120 ∧ 10 ≤ c.turnLimit ∧ c.turnLimit ≤ 90

/-- A tariff plan is within the ranges of R134. -/
abbrev Tariff.inRange (t : Tariff) : Prop :=
  t.grace ≤ 120 ∧ 1 ≤ t.unitLength ∧ t.unitLength ≤ 1440 ∧ t.unitCharge ≤ 65535 ∧ t.dailyCap ≤ 1000000 ∧
    t.lostCharge ≤ 1000000 ∧ 1 ≤ t.hireLimit ∧ t.hireLimit ≤ 240

/-- A point is a point in hall time (00, Conventions). -/
abbrev HallTime.inRange (t : HallTime) : Prop := t.day ≤ 9999 ∧ t.second ≤ 86399

/-- Every configuration value, the hall clock, the hire number counter and the accounting day number stay within
their ranges (R2, R69, R100, R114, R134, R154, R160). -/
abbrev State.valuesInRange (s : State) : Prop :=
  (∀ c ∈ s.booth.configs.rows, c.inRange) ∧ (∀ v ∈ s.planner.budgets.rows, v ≤ 32) ∧
    (20 ≤ s.registry.threshold ∧ s.registry.threshold ≤ 100) ∧ (∀ t ∈ s.settlement.tariffs.rows, t.inRange) ∧
    s.session.clock.inRange ∧ (1 ≤ s.hires.counter ∧ s.hires.counter ≤ 9999) ∧
    (1 ≤ s.session.dayNumber ∧ s.session.dayNumber ≤ 9999)

/-- Floor's four fixed values (R57). -/
abbrev ProgConfig.isFloor (c : ProgConfig) : Prop :=
  c.configured = true ∧ c.priority = .critical ∧ c.quality = .standard ∧ c.engagement = .interlock

/-- Program 0's committed configuration holds Floor's fixed values, and so does the shadow of a plan hold (R57,
R59). -/
abbrev State.floorFixed (s : State) : Prop :=
  (s.program 0).config.isFloor ∧ ∀ h ∈ s.planner.hold, (h.programs.get 0).isFloor

/-- Every retained group's check word agrees with its contents (R185). -/
abbrev State.wordsAgree (s : State) : Prop := ∀ b ∈ s.retention.intact.rows, b = true

/-! ### Laws that tie the blocks together -/

/-- Program `p`'s live desk selects program `q` (R46, R47). -/
def State.listensTo (s : State) (p q : Prog) : Prop :=
  ∃ d, (s.program p).liveDesk = some d ∧ (s.desk d).selected = q ∧ q ≠ 0

/-- Program `p` lies on a loop: the walk along the selections comes back to it (R48). -/
def State.onLoop (s : State) (p : Prog) : Prop := Relation.TransGen s.listensTo p p

/-- Who is on the air, as desks, programs, requests and the session tell it (R5, R6, R13, R21, R25, R65, R186): a LIVE
desk is the live desk of the program its output names and no other desk is any program's live desk; a booth has at most
one LIVE desk; a desk is LIVE only in a LIVE session, and the session is SETUP until start-up is over; a request's live
desk is LIVE, its requester READY, and its output names a program; and a plan hold outside SETUP shadows the committed
outputs and configured fields unchanged. -/
structure State.airConsistent (s : State) : Prop where
  desks : ∀ d id o, (s.desk d).state = .live id o →
    ∃ p, (s.boothConfig d.booth).outputs.get o = some p ∧ (s.program p).liveDesk = some d
  programs : ∀ p d, (s.program p).liveDesk = some d →
    ∃ id o, (s.desk d).state = .live id o ∧ (s.boothConfig d.booth).outputs.get o = some p
  single : ∀ d e : DeskId, d.booth = e.booth → (s.desk d).state.isLive = true → (s.desk e).state.isLive = true → d = e
  session : ∀ d : DeskId, (s.desk d).state.isLive = true → s.session.state = .live
  startup : s.startup ≠ .done → s.session.state = .setup
  requests : ∀ b r, s.request b = some r → (s.desk ⟨b, r.liveDesk⟩).state.isLive = true ∧
    (∃ id, (s.desk ⟨b, r.requester⟩).state = .ready id) ∧ ((s.boothConfig b).outputs.get r.output).isSome = true
  floor : s.floorFixed
  shadow : ∀ h, s.planner.hold = some h → s.session.state ≠ .setup →
    (∀ b, h.outputs.get b = (s.boothConfig b).outputs) ∧
    ∀ p, (h.programs.get p).configured = (s.program p).config.configured

/-- The slots of the carried programs: two for one carried at HIGH, one for every other (R75). -/
def State.carriedSlots (s : State) : Nat := (s.programs.rows.map fun r => slotsOf (carriedQuality r)).sum

/-- The law of the carrier plan (R75), which holds outside start-up. -/
def State.carriedFits (s : State) : Prop :=
  s.startup = .done → s.carriedSlots ≤ s.budget ∨
    ∀ p, (s.program p).radiation.isCarried = true →
      (s.program p).config.priority = .critical ∧ carriedQuality (s.program p) = some .standard

/-- The rack slot map and the records name each other, and the records stand in strictly ascending order (R92, R94). -/
def State.rackMapAgrees (s : State) : Prop :=
  s.registry.receivers.Pairwise (fun a b => a.number < b.number) ∧
    ∀ k n, s.registry.slots.get k = some n ↔ ∃ r ∈ s.registry.receivers, r.number = n ∧ r.slot = some k

/-- Outside start-up, each program's demand count is the number of OUT lines of OPEN hires with it as preset (R128); and
the records stand in strictly ascending order of hire number, at most 512, under a counter from 1 to 9999 (R113, R114), a
SETTLING hire having no line OUT (R126). -/
def State.demandCounted (s : State) : Prop :=
  s.hires.records.Pairwise (fun a b => a.number < b.number) ∧ s.hires.records.length ≤ 512 ∧
    (1 ≤ s.hires.counter ∧ s.hires.counter ≤ 9999) ∧
    (∀ h ∈ s.hires.records, h.state = .settling → h.anyOut = false) ∧ (s.startup = .done → ∀ p, (s.program p).demand = s.demandOf p)

/-- The law between the interpreter table and the desks (R7): IDs from 1 to 65535, none twice; every desk that is not VACANT
names an ID of the table; an entry's current desk names a desk exactly when that desk is not VACANT and holds the entry's
ID. Until a start-up is over every desk is VACANT (R186, R188). -/
structure State.seatsAgree (s : State) : Prop where
  range : ∀ e ∈ s.booth.interpreters, 1 ≤ e.id ∧ e.id ≤ 65535
  unique : s.booth.interpreters.Pairwise fun a b => a.id ≠ b.id
  present : ∀ d id, (s.desk d).state.id? = some id → ∃ e ∈ s.booth.interpreters, e.id = id
  linked : ∀ e ∈ s.booth.interpreters, ∀ d, e.desk = some d ↔ (s.desk d).state.id? = some e.id
  startup : s.startup ≠ .done → ∀ d, (s.desk d).state = .vacant

/-- The pattern of slot and hire number that goes with a receiver's state (R93); a marked receiver is a racked one
(R107, R108). -/
abbrev Receiver.fits (r : Receiver) : Prop :=
  (r.mark = true → r.state = .ready ∨ r.state = .charging) ∧
    (r.state = .ready ∨ r.state = .charging → r.slot ≠ none ∧ r.hire = none) ∧
    (r.state = .onHire → r.hire ≠ none) ∧ (r.state = .unracked → r.slot = none ∧ r.hire = none) ∧
    (r.state = .lost → r.slot = none ∧ r.hire ≠ none) ∧ (r.state = .withdrawn → r.hire = none)

/-- The number of OUT lines that a hire holds for receiver `n`. -/
def Hire.outFor (h : Hire) (n : Nat) : Nat := h.lines.countP fun l => l.receiver = n ∧ l.state = .out

/-- The law between receivers and hire lines (R93, R112): each receiver's fields fit its state; an ON_HIRE receiver names a
hire of the table that holds exactly one OUT line for it; and an OUT line's receiver is ON_HIRE and names the line's
hire. -/
structure State.linesAgree (s : State) : Prop where
  order : s.registry.receivers.Pairwise fun a b => a.number < b.number
  fits : ∀ r ∈ s.registry.receivers, r.fits
  onHire : ∀ r ∈ s.registry.receivers, r.state = .onHire →
    ∃ h ∈ s.hires.records, r.hire = some h.number ∧ h.outFor r.number = 1
  out : ∀ h ∈ s.hires.records, ∀ l ∈ h.lines, l.state = .out →
    ∃ r ∈ s.registry.receivers, r.number = l.receiver ∧ r.state = .onHire ∧ r.hire = some h.number

/-! ### Power and reset -/

/-- Every retained group holds the default of R185's table. -/
structure State.atDefaults (t : State) : Prop where
  registry : t.registry.receivers = [] ∧ t.registry.slots = .replicate 512 none
  hires : t.hires = ⟨[], 1⟩
  settlement : t.settlement = ⟨.replicate 8 ⟨10, 60, 0, 0, 0, 24⟩, []⟩
  programs : ∀ p, (t.program p).config = (if p = 0 then ⟨true, .default, .critical, .standard, .interlock⟩
    else ⟨false, .default, .low, .standard, .interlock⟩) ∧ (t.program p).outage = 0 ∧ (t.program p).outageBase = 0
  booths : t.booth.configs = .replicate 24 ⟨⟨none, none⟩, .immediate, 20, .force, 30⟩
  banks : (∀ k, t.planner.budgets.get k = 4 * (k.val + 1)) ∧ t.registry.threshold = 80
  interpreters : t.booth.interpreters = []
  clock : t.session.clock = ⟨0, 0⟩ ∧ t.session.valid = false ∧ t.session.restartCount = 1 ∧
    t.session.restartCause = .coldStart
  day : t.session.dayNumber = 1 ∧ t.session.counters = ⟨0, 0, 0, 0, 0, 0, 0, 0⟩ ∧ t.session.summary = none

/-- In `t` every volatile item of `s` has its reset value and the rest of `s` is kept, the retained domain but for the
interpreters' current desks; the timebase, the pins of power and reset, the start-up state, the restart count and cause,
the tick watch and the check words are left to the event that resets (R186, R188). -/
structure State.volatileResetOf (s t : State) : Prop where
  desks : ∀ d, t.desk d = ⟨.vacant, 0, 0, false, 0, .ok⟩
  requests : ∀ b, t.request b = none
  booth : t.booth.configs = s.booth.configs ∧
    t.booth.interpreters = s.booth.interpreters.map (fun e => { e with desk := none })
  programs : ∀ p, t.program p = { s.program p with
    radiation := if (s.program p).config.configured then .carried else .unconfigured
    demand := 0
    shedCount := 0
    liveDesk := none
    lastCause := .none
    derivedSource := none
    level := .floorFallback }
  planner : t.planner.bank = s.planner.lines ∧ t.planner.lines = s.planner.lines ∧ t.planner.candidate = none ∧
    t.planner.hold = none ∧ t.planner.budgets = s.planner.budgets ∧ t.planner.slotsInUse = 0
  link : t.link.phase = .held ∧ t.link.pendingCount = 105 ∧ t.link.stallSince = none ∧ t.link.episode = false ∧
    t.link.ready = s.link.ready ∧ t.link.lastSent = s.link.lastSent
  registry : t.registry = { s.registry with
    receivers := s.registry.receivers.map fun r => { r with mark := false }
    stocktake := ⟨false, none, 0, 0⟩ }
  hires : t.hires = s.hires
  settlement : t.settlement = s.settlement
  session : t.session.state = .setup ∧ t.session.clock = s.session.clock ∧ t.session.valid = s.session.valid ∧
    t.session.dayNumber = s.session.dayNumber ∧ t.session.counters = s.session.counters ∧
    t.session.summary = s.session.summary
  ports : (∀ p, t.port p = ⟨none, none, [], kindsOf p, false⟩) ∧ t.ports.selfReset = false ∧
    t.ports.wire = s.ports.wire
  faults : t.faults = ⟨none, false, false, false, []⟩
  starting : t.starting = true

end Sys2Proof.Machine
end

