-- ==== Sys2Proof/Certificates/Slice0/Obligations.lean ====
section
/-! DEFINITION. The statements about the K24, one `def Obligations.<Name> : Prop` each, in the order of
OBLIGATIONS.json. Requests are written as the bytes that R170 gives them. `State.answered` is the state with an answer
placed and nothing else changed, so that a statement of the form `exec c s = .next { s.answered … with … }` says what
a command does and that it does nothing else. -/

section

open Sys2Proof Sys2Proof.Machine

/-! ### The machine -/

/-- A step runs the command at the front of the queue on the state with the queue's rest. With nothing waiting and an IDLE
link, READY asserted and a key pending, the send opportunity that stands is put in the queue at once and no time passes
(R82, R90). Otherwise, with a request in a port's slot that was taken before every other that waits, its handling is put
in the queue and no time passes (R167, R169). Otherwise a millisecond passes while main power is present: the timebase
counts, its end at 2^64 − 1 being where it stays, and the queue receives the expiry of each deadline and wait that the
count has reached, and the completion of a start-up check that has come to 300 ms, each once, and nothing else changes (R1,
R30, R70, R88, R110, R158, R186). That the commands stand in a queue, that an idle step is a millisecond, that it queues
the expiries, a standing opportunity, the check's completion and a waiting request's handling, what the count does at its
end, and that no tick watch runs while RESET_N is asserted over a power-on start-up are the MODEL's choices (log entries 1,
2, 3, 12, 44, 45, 4 and 43). -/
def Obligations.StepRunsFrontCommand : Prop :=
  (∀ (c : Instr) (rest : List Instr) (s : State), s.pending = c :: rest →
    step s = exec c { s with pending := rest }) ∧
  (∀ s : State, s.pending = [] → s.powered = true → s.link.phase = .idle → s.link.ready = true →
    s.link.anyPending = true → step s = .next { s with pending := [.sendOpportunity] }) ∧
  (∀ (s : State) (p : Port) (r : Request), s.pending = [] → s.powered = true → s.resetAsserted = false →
    s.link.phase ≠ .idle ∨ s.link.ready = false ∨ s.link.anyPending = false → (s.port p).request = some r →
    (∀ q k, (s.port q).request = some k → q ≠ p → r.turn < k.turn) →
    step s = .next { s with pending := [commandOf p r.code r.params] }) ∧
  ∀ s : State, s.pending = [] → s.powered = false ∨ s.link.phase ≠ .idle ∨ s.link.ready = false ∨
      s.link.anyPending = false →
    s.powered = false ∨ s.resetAsserted = true ∨ (∀ p, (s.port p).request = none) →
    ∃ t, step s = .next t ∧ t = { s with now := t.now, pending := t.pending } ∧
    t.now = (if s.powered then min (2 ^ 64 - 1) (s.now + 1) else s.now) ∧ t.pending.Nodup ∧
    (.startupCheckComplete ∈ t.pending ↔ s.powered = true ∧ s.resetAsserted = false ∧ s.startup = .checking ∧
      s.checkSince + 300 ≤ t.now) ∧
    (∀ b, .handoverExpiry b ∈ t.pending ↔ s.powered = true ∧ ∃ r, s.request b = some r ∧ r.deadline ≤ t.now) ∧
    (.stocktakeExpiry ∈ t.pending ↔ s.powered = true ∧ s.registry.stocktake.running = true ∧
      ∃ k, s.registry.stocktake.deadline = some k ∧ k ≤ t.now) ∧
    (.debounceExpiry ∈ t.pending ↔ s.powered = true ∧ s.resetAsserted = false ∧
      ∃ c, s.planner.candidate = some c ∧ c.2 + 500 ≤ t.now) ∧
    (.tickWatchExpiry ∈ t.pending ↔ s.powered = true ∧ s.startup ≠ .checking ∧ s.session.tickLost = false ∧
      s.session.tickSince + 3000 ≤ t.now) ∧
    (.stallWatchExpiry ∈ t.pending ↔ s.powered = true ∧ s.link.episode = false ∧
      ∃ k, s.link.stallSince = some k ∧ k + 2000 ≤ t.now) ∧
    ∀ c ∈ t.pending, (∃ b, c = .handoverExpiry b) ∨
      c ∈ [.startupCheckComplete, .stocktakeExpiry, .debounceExpiry, .tickWatchExpiry, .stallWatchExpiry]

/-- Every event is taken whole and ends in a next state, and none of them touches the queue of commands (R24, R78,
R133, R150; 95_what_each_step_holds). -/
def Obligations.EveryEventIsTakenWhole : Prop :=
  ∀ (c : Instr) (s : State), ∃ t, exec c s = .next t ∧ t.pending = s.pending

/-- The machine right after POWER_ON: STARTING is set, every notice queue is empty, every mask holds the port's kinds, all
keys are pending and the link is HELD, every desk is VACANT, no request stands, the session is SETUP, no hold is
active, the stocktake is IDLE and the capture is clear (R165, R186). The retained contents that State.reset holds, the
supply marker and the agreement of the check words, and the levels of the pins are the MODEL's choice (log entries 6, 7
and 8); with them the laws of the device that the invariants below state hold there: values in range, Floor, words in
agreement, waiting requests past their checks, who is on the air, the plan in its budget, the interpreters, the rack map,
the hire lines and the demand. -/
def Obligations.ResetStateAndItsLaws : Prop :=
  State.reset.now = 0 ∧ State.reset.starting = true ∧
  (∀ p, State.reset.port p = ⟨none, none, [], kindsOf p, false⟩) ∧ State.reset.ports.selfReset = false ∧
  State.reset.link.phase = .held ∧ State.reset.link.pendingCount = 105 ∧
  (∀ d, State.reset.desk d = ⟨.vacant, 0, 0, false, 0, .ok⟩) ∧ (∀ b, State.reset.request b = none) ∧
  State.reset.session.state = .setup ∧ State.reset.planner.hold = none ∧ State.reset.planner.candidate = none ∧
  State.reset.registry.stocktake = ⟨false, none, 0, 0⟩ ∧ State.reset.faults = ⟨none, false, false, false, []⟩ ∧
  State.reset.portsOk ∧ State.reset.tablesOk ∧ State.reset.valuesInRange ∧ State.reset.floorFixed ∧
  State.reset.wordsAgree ∧ State.reset.waitingPassed ∧ State.reset.airConsistent ∧ State.reset.carriedFits ∧ State.reset.rackMapAgrees ∧
  State.reset.demandCounted ∧ State.reset.seatsAgree ∧ State.reset.linesAgree ∧ State.reset.now ≤ 2 ^ 64 - 1

/-- Reading a request as a command and writing the command back give the same code and parameters, for every code; the
command of a well-formed request is the one that its code names; and the bytes of a request frame, with anything
after the declared parameters, are read as that request (R167, R169, R178). -/
def Obligations.RequestsDecodeAndEncodeAgree : Prop :=
  (∀ (p : Port) (code : Byte) (params : List Byte),
    requestOf (commandOf p code params) = some (p, code, params)) ∧
  (∀ (c : Instr) (p : Port) (code : Byte) (params : List Byte), c.wellFormed = true →
    requestOf c = some (p, code, params) → commandOf p code params = c) ∧
  ∀ (code : Byte) (params more : List Byte), params.length ≤ 250 →
    readFrame (code :: BitVec.ofNat 8 params.length :: (params ++ more)) = .whole code params

/-- Every step keeps at most 16 notices in each port's queue and only a port's own kinds in its mask, and keeps the
capacities of the tables: 512 hires, 64 settlement records, 2048 receivers, 96 interpreters (R7, R92, R113, R144,
R165, R174, R176); keeps every request that waits in a slot one that has passed its port's checks, so that none waits that
the port itself answers (R167, R169); and keeps the internal timebase at or below 2^64 − 1 (R1). -/
def Obligations.QueuesAndTablesStayBounded : Prop :=
  (∀ s t : State, s.portsOk → step s = .next t → t.portsOk) ∧
  (∀ s t : State, s.tablesOk → step s = .next t → t.tablesOk) ∧
  (∀ s t : State, s.waitingPassed → step s = .next t → t.waitingPassed) ∧
  ∀ s t : State, s.now ≤ 2 ^ 64 - 1 → step s = .next t → t.now ≤ 2 ^ 64 - 1

/-- Every step keeps every configuration value, the hall clock, the hire number counter and the accounting day number
within their ranges (R2, R69, R100, R114, R134, R154, R160); keeps Floor's four fixed values, in the committed record
and in the shadow of a plan hold (R57); and keeps every check word in agreement with its group, since a write to a group
recomputes it in the same step (R185; the words are the MODEL's agreement flags, log entry 8). -/
def Obligations.RetainedValuesStayLawful : Prop :=
  (∀ s t : State, s.valuesInRange → step s = .next t → t.valuesInRange) ∧
  (∀ s t : State, s.floorFixed → step s = .next t → t.floorFixed) ∧
  ∀ s t : State, s.wordsAgree → step s = .next t → t.wordsAgree

/-! ### Requests and answers -/

/-- A request that a port can take is answered in the answer slot, and when the answer reports a refusal nothing but that
answer has changed (R167, R169). -/
def Obligations.RefusedCommandsChangeNothing : Prop :=
  ∀ (c : Instr) (s : State) (p : Port) (code : Byte) (params : List Byte), c.wellFormed = true →
    requestOf c = some (p, code, params) → s.canTake p →
    ∃ t r fields, exec c s = .next t ∧ t.holdsAnswer p code r fields ∧
      (r.success = false → t = s.answered p code r fields)

/-- The port's checks on a request, made when the request is brought, by the row of its command or by a request transaction
with its whole frame, in their order: start-up, the command code, the port and the parameter length. The check that decides
answers there and then, and nothing but that answer changes (R167, R169). Most commands' parameters have one length; SET
NOTICE MASK and CLEAR FAULTS carry a list of at most 19 and 3 bytes, OPEN HIRE seven bytes, an optional byte and a list of 1
to 8 two-byte numbers, CHANGE PRESET two bytes and an optional one, SET BOOTH one byte, two optional ones and four more (R3,
R115, R123, R170, R176, R184). That READ INTERPRETER's parameters (code 0x64) have the one length 3, and that a presence
byte other than 0 and 1 does not fit, are the MODEL's choices (log entries 37 and 20). -/
def Obligations.RequestChecksRunInOrder : Prop :=
  (∀ (c : Instr) (s : State) (p : Port) (code : Byte) (params : List Byte), Brings c p code params →
    s.powered = true → s.resetAsserted = false → (s.port p).request = none →
    (p = .operator → s.ports.selfReset = false) →
    (s.startup ≠ .done → code ≠ 0x01#8 → exec c s = .next (s.answered p code .starting [])) ∧
    (s.startup = .done →
      (commandAccess code = none → exec c s = .next (s.answered p code .unknownCommand [])) ∧
      (∀ q, commandAccess code = some (.only q) → q ≠ p → exec c s = .next (s.answered p code .wrongPort [])) ∧
      (acceptedOn code p = true → paramsFit code params = false →
        exec c s = .next (s.answered p code .malformed [])))) ∧
  (∀ (s : State) (p : Port) (code : Byte) (params : List Byte), s.canTake p → commandAccess code = none →
    params.length ≤ 250 →
    exec (.unknownCommand p code params) s = .next (s.answered p code .unknownCommand [])) ∧
  (∀ (code : Byte) (n : Nat) (params : List Byte),
    (code, n) ∈ [(0x01#8, 0), (0x02#8, 0), (0x04#8, 0), (0x10#8, 4), (0x11#8, 2), (0x12#8, 3), (0x13#8, 2),
      (0x14#8, 1), (0x15#8, 3), (0x16#8, 2), (0x17#8, 1), (0x18#8, 1), (0x31#8, 4), (0x32#8, 2), (0x33#8, 4),
      (0x35#8, 4), (0x36#8, 3), (0x37#8, 5), (0x38#8, 3), (0x39#8, 2), (0x3A#8, 0), (0x3B#8, 0), (0x3C#8, 0),
      (0x3D#8, 3), (0x50#8, 0), (0x51#8, 0), (0x52#8, 0), (0x53#8, 0), (0x55#8, 8), (0x56#8, 0), (0x57#8, 0),
      (0x58#8, 0), (0x59#8, 2), (0x5A#8, 13), (0x5B#8, 1), (0x5C#8, 5), (0x5D#8, 0), (0x5E#8, 2), (0x5F#8, 2),
      (0x60#8, 2), (0x61#8, 2), (0x62#8, 0), (0x64#8, 3), (0x65#8, 0), (0x66#8, 0), (0x67#8, 1), (0x68#8, 1),
      (0x69#8, 1)] →
    (paramsFit code params = true ↔ params.length = n)) ∧
  (∀ (code : Byte) (most : Nat) (params : List Byte), (code, most) ∈ [(0x03#8, 19), (0x63#8, 3)] →
    (paramsFit code params = true ↔ ∃ n l, params = n :: l ∧ l.length = n.toNat ∧ n.toNat ≤ most)) ∧
  ∀ params : List Byte,
    (paramsFit 0x30#8 params = true ↔ ∃ a o n l, params = a ++ o ++ n :: l ∧ a.length = 7 ∧ OptionalByte o ∧
      1 ≤ n.toNat ∧ n.toNat ≤ 8 ∧ l.length = 2 * n.toNat) ∧
    (paramsFit 0x34#8 params = true ↔ ∃ a o, params = a ++ o ∧ a.length = 2 ∧ OptionalByte o) ∧
    (paramsFit 0x54#8 params = true ↔ ∃ a o q b, params = a ++ o ++ q ++ b ∧ a.length = 1 ∧ OptionalByte o ∧
      OptionalByte q ∧ b.length = 4)

/-- What a request transaction does (R167): with BUSY set the frame is ignored and the status byte alone is shifted out; a
frame with no command code changes nothing; a frame cut short, or with a length byte above 250, is answered
MALFORMED; a whole frame is placed in the request slot, any unread answer discarded, where it waits behind every request
that waits already; but a request that a check of the port decides is answered there and then (R169); and a self-reset
pending on the Operator port is carried out first (R177), but not by a frame with no command code, which the MODEL has
change nothing (log entry 26). The turn that keeps the order of arrival is the MODEL's field (log entry 45). -/
def Obligations.RequestTransactionTakesTheFrame : Prop :=
  (∀ (s : State) (p : Port) (r : Request), (s.port p).request = some r → r.turn < s.nextTurn) ∧
  ∀ (s : State) (p : Port) (frame : List Byte), s.powered = true → s.resetAsserted = false →
    ((s.port p).request ≠ none →
      exec (.requestTransaction p frame) s = .next (s.shiftOut p [s.statusByte p])) ∧
    ((s.port p).request = none →
      (frame = [] → exec (.requestTransaction p frame) s = .next (s.shiftOut p [s.statusByte p])) ∧
      ((p = .operator → s.ports.selfReset = false) →
        (∀ code, frame = [code] →
          exec (.requestTransaction p frame) s = .next (s.answered p code .malformed [])) ∧
        (∀ code len rest, frame = code :: len :: rest → 250 < len.toNat ∨ rest.length < len.toNat →
          exec (.requestTransaction p frame) s = .next (s.answered p code .malformed [])) ∧
        (∀ code len params more, frame = code :: len :: (params ++ more) → params.length = len.toNat →
          len.toNat ≤ 250 →
          (s.portCheck p code params = none → exec (.requestTransaction p frame) s = .next (s.taken p code params)) ∧
          ∀ r, s.portCheck p code params = some r →
            exec (.requestTransaction p frame) s = .next (s.answered p code r []))) ∧
      (p = .operator → s.ports.selfReset = true →
        (∀ code r, ((frame = [code] ∨ (∃ len rest, frame = code :: len :: rest ∧
            (250 < len.toNat ∨ rest.length < len.toNat))) ∧ r = .malformed) ∨
            (∃ len params more, frame = code :: len :: (params ++ more) ∧ params.length = len.toNat ∧ len.toNat ≤ 250 ∧
              s.portCheck .operator code params = some r) →
          exec (.requestTransaction p frame) s = .next
          { s with ports :=
            { s.ports with
              operator := ⟨none, some ⟨code, r, []⟩, [], kindsOf .operator, false⟩
              selfReset := false
              wire := { s.ports.wire with operator := [s.statusByte .operator] } } }) ∧
        ∀ code len params more, frame = code :: len :: (params ++ more) → params.length = len.toNat →
          len.toNat ≤ 250 → s.portCheck .operator code params = none → exec (.requestTransaction p frame) s = .next
            { s with ports :=
              { s.ports with
                operator := ⟨some ⟨code, params, s.nextTurn⟩, none, [], kindsOf .operator, false⟩
                selfReset := false
                wire := { s.ports.wire with operator := [s.statusByte .operator] } } }))

/-- A whole request transaction whose request passes the port's checks, and then the row that handles it, do together what
the row does by itself on a port with an empty slot: the same answer and the same effects; a request that a check decides is
answered by the transaction as by the row (R167, R169; a command row stands for both, log entry 5). With nothing else
waiting the K24 brings the handling itself, before any time passes (the MODEL's place for it, log entry 45). -/
def Obligations.ATakenRequestIsHandledAsItsCommand : Prop :=
  ∀ (s u : State) (p : Port) (code len : Byte) (params more : List Byte), s.powered = true → s.resetAsserted = false →
    (s.port p).request = none → params.length = len.toNat → len.toNat ≤ 250 →
    exec (.requestTransaction p (code :: len :: (params ++ more))) s = .next u →
    (s.portCheck p code params = none → exec (commandOf p code params) u = exec (commandOf p code params) s) ∧
    (s.portCheck p code params ≠ none → exec (commandOf p code params) s = .next u) ∧
    (s.portCheck p code params = none → s.pending = [] →
      s.link.phase ≠ .idle ∨ s.link.ready = false ∨ s.link.anyPending = false →
      (∀ q, q ≠ p → (s.port q).request = none) → step u = .next { u with pending := [commandOf p code params] })

/-- An answer is sent once (R168): the fetch shifts out the status byte and the answer frame and empties the slot, and the
next fetch finds it empty; a fetch with an empty slot shifts out the frame 00, EMPTY, 0 and changes nothing; a fetch on
the Operator port carries out a pending self-reset (R177). -/
def Obligations.AnAnswerIsFetchedOnce : Prop :=
  ∀ (s : State) (p : Port), s.powered = true → s.resetAsserted = false →
    (∀ code r fields, (s.port p).answer = some ⟨code, r, fields⟩ →
      ((p = .operator → s.ports.selfReset = false) →
        exec (.fetchAnswer p) s = .next
          ((s.shiftOut p ([s.statusByte p, code, BitVec.ofNat 8 r.code, BitVec.ofNat 8 fields.length] ++ fields)).setPort p
            { s.port p with answer := none })) ∧
      (p = .operator → s.ports.selfReset = true →
        exec (.fetchAnswer p) s = .next
          { s with ports :=
            { s.ports with
              operator := ⟨none, none, [], kindsOf .operator, false⟩
              selfReset := false
              wire := { s.ports.wire with operator :=
                [s.statusByte p, code, BitVec.ofNat 8 r.code, BitVec.ofNat 8 fields.length] ++ fields } } })) ∧
    ((s.port p).answer = none →
      exec (.fetchAnswer p) s = .next (s.shiftOut p [s.statusByte p, 0x00#8, 0x03#8, 0x00#8]))

/-- A status-only transaction, and one whose transaction byte is none of 1, 2 and 3, shift out the status byte and change
nothing (R166); its bits are ANSWER_READY, BUSY, NOTICE_PENDING, NOTICES_LOST and STARTING from bit 0 on (R178). -/
def Obligations.StatusTransactionsShowTheFlags : Prop :=
  ∀ (s : State) (p : Port),
    (s.powered = true → s.resetAsserted = false →
      exec (.statusOnly p) s = .next (s.shiftOut p [s.statusByte p]) ∧
      ∀ b : Byte, b ≠ 1#8 → b ≠ 2#8 → b ≠ 3#8 →
        exec (.undefinedTransactionByte p b) s = .next (s.shiftOut p [s.statusByte p])) ∧
    (s.statusByte p).getLsbD 0 = (s.port p).answer.isSome ∧ (s.statusByte p).getLsbD 1 = (s.port p).request.isSome ∧
    (s.statusByte p).getLsbD 2 = !(s.port p).queue.isEmpty ∧ (s.statusByte p).getLsbD 3 = (s.port p).lost ∧
    (s.statusByte p).getLsbD 4 = (s.startup != .done) ∧ (s.statusByte p).toNat < 32

/-- While RESET_N is asserted no transaction is taken and no request is handled (R188); so also while main power is off
(the MODEL's reading, log entry 9). -/
def Obligations.NoTransactionWhileResetOrOff : Prop :=
  ∀ (s : State) (p : Port), s.powered = false ∨ s.resetAsserted = true →
    (∀ frame, exec (.requestTransaction p frame) s = .next s) ∧ exec (.fetchAnswer p) s = .next s ∧
    exec (.statusOnly p) s = .next s ∧ (∀ b, exec (.undefinedTransactionByte p b) s = .next s) ∧
    ∀ code params, exec (commandOf p code params) s = .next s

/-! ### Notices and faults -/

/-- What a port does with a notice: a masked kind is not queued and nothing else happens; with fewer than 16 notices it
joins at the back; with 16 it is dropped, NOTICES_LOST is set, and the drop raises NOTICE_OVERFLOW. Queuing a notice
offers it, as it stands and with the present hall time, to every port of its kind; it touches the queues, the
NOTICES_LOST flags and the fault capture and nothing else: no slot, no mask, no other block (R173, R174). -/
def Obligations.NoticesJoinUnlessMaskedOrFull : Prop :=
  (∀ (s : State) (p : Port) (n : Notice),
    (n.kind ∉ (s.port p).mask → s.offer p n = (s, false)) ∧
    (n.kind ∈ (s.port p).mask → (s.port p).queue.length < 16 →
      s.offer p n = (s.setPort p { s.port p with queue := (s.port p).queue ++ [n] }, false)) ∧
    (n.kind ∈ (s.port p).mask → 16 ≤ (s.port p).queue.length →
      s.offer p n = (s.setPort p { s.port p with lost := true }, true))) ∧
  (∀ (s : State) (k : NoticeKind) (p : Port) (a b c d : Nat), k.ports = [p] → k ∈ (s.port p).mask →
    16 ≤ (s.port p).queue.length →
    s.notify k a b c d = (s.setPort p { s.port p with lost := true }).raiseFault .noticeOverflow (portCode p)) ∧
  ∀ (s t : State) (k : NoticeKind) (a b c d : Nat), s.notify k a b c d = t →
    t = { s with ports := t.ports, faults := t.faults } ∧
    (∀ p, (t.port p).request = (s.port p).request ∧ (t.port p).answer = (s.port p).answer ∧
      (t.port p).mask = (s.port p).mask ∧ (s.port p).queue <+: (t.port p).queue ∧
      (p ∈ k.ports → (s.port p).joined ⟨k, s.session.clock, [a, b, c, d]⟩ <+: (t.port p).queue) ∧
      (p ∉ k.ports → p ≠ .operator → t.port p = s.port p)) ∧
    t.ports.selfReset = s.ports.selfReset ∧ t.ports.wire = s.ports.wire ∧
    ((∀ p ∈ k.ports, k ∈ (s.port p).mask → (s.port p).queue.length < 16) → t.faults = s.faults ∧
      ∀ p ∈ k.ports, (t.port p).queue = (s.port p).joined ⟨k, s.session.clock, [a, b, c, d]⟩)

/-- The table of fault raises: what a raise does by its class and by the flags as they stand. An alert and a severe fault
raised together on clear flags end, in either order, with the severe details latched and both flags set; the one order
latches twice and the other once. With start-up over a raise is taken by this table, whatever becomes of its notice, when
the notice can join or is masked (R182). -/
def Obligations.AFaultRaiseFollowsTheTable : Prop :=
  (∀ (c : FaultCapture) (f : FaultKind) (context : Nat) (time : HallTime),
    (f.severe = false → c.alertSeen = false → c.severeSeen = false → c.multipleSevere = false →
      c.take f context time = ({ c with record := some ⟨f, context, time⟩, alertSeen := true }, true)) ∧
    (f.severe = false → c.alertSeen = true ∨ c.severeSeen = true ∨ c.multipleSevere = true →
      c.take f context time = ({ c with alertSeen := true }, false)) ∧
    (f.severe = true → c.severeSeen = false →
      c.take f context time = ({ c with record := some ⟨f, context, time⟩, severeSeen := true }, true)) ∧
    (f.severe = true → c.severeSeen = true →
      c.take f context time = ({ c with multipleSevere := true }, false))) ∧
  (∀ (c : FaultCapture) (f g : FaultKind) (n m : Nat) (time : HallTime), f.severe = false → g.severe = true →
    c.alertSeen = false → c.severeSeen = false → c.multipleSevere = false →
    (∀ u, u = c.take f n time → u.2 = true ∧ u.1.take g m time =
      ({ c with record := some ⟨g, m, time⟩, alertSeen := true, severeSeen := true }, true)) ∧
    ∀ u, u = c.take g m time → u.2 = true ∧ u.1.take f n time =
      ({ c with record := some ⟨g, m, time⟩, alertSeen := true, severeSeen := true }, false)) ∧
  ∀ (s : State) (f : FaultKind) (context : Nat), s.startup = .done →
    (.faultRaised ∉ (s.port .operator).mask ∨ (s.port .operator).queue.length < 16) →
    (s.raiseFault f context).faults = (s.faults.take f context s.session.clock).1

/-- A raise that latches details queues FAULT_RAISED to the Operator port with the fault's code, class and context, and one
that latches nothing queues nothing; while STARTING is set the raise is held (R183, R186). -/
def Obligations.ARaiseThatLatchesIsNotified : Prop :=
  ∀ (s : State) (f : FaultKind) (context : Nat),
    (s.startup ≠ .done →
      s.raiseFault f context = { s with faults := { s.faults with held := s.faults.held ++ [(f, context)] } }) ∧
    (s.startup = .done → (s.faults.take f context s.session.clock).2 = false →
      s.raiseFault f context = { s with faults := (s.faults.take f context s.session.clock).1 }) ∧
    (s.startup = .done → (s.faults.take f context s.session.clock).2 = true →
      ((s.raiseFault f context).port .operator).queue =
        (s.port .operator).joined ⟨.faultRaised, s.session.clock, [f.code, f.classCode, context, 0]⟩ ∧
      (s.raiseFault f context).ports.booth = s.ports.booth ∧ (s.raiseFault f context).ports.hire = s.ports.hire)

/-- READ NOTICE takes the oldest notice of the asking port and tells how many are left and NOTICES_LOST as it stood; the
flag is cleared when the queue becomes empty; an empty queue is answered EMPTY with a count of 0 (R175). That a flag is one
byte, 1 or 0, is the MODEL's choice (log entry 10). -/
def Obligations.ReadNoticeTakesTheOldest : Prop :=
  ∀ (s : State) (p : Port), s.canTake p →
    ((s.port p).queue = [] → exec (.readNotice p []) s = .next (s.answered p 0x02#8 .empty [0x00#8])) ∧
    ∀ n rest, (s.port p).queue = n :: rest →
      exec (.readNotice p []) s = .next
        ((s.answered p 0x02#8 .ok (be 1 n.kind.code ++ be 4 n.time.abs ++ n.context.flatMap (be 2)
            ++ be 1 rest.length ++ flagByte (s.port p).lost)).setPort p
          { (s.answered p 0x02#8 .ok (be 1 n.kind.code ++ be 4 n.time.abs ++ n.context.flatMap (be 2)
              ++ be 1 rest.length ++ flagByte (s.port p).lost)).port p with
            queue := rest
            lost := if rest.isEmpty then false else (s.port p).lost })

/-- SET NOTICE MASK sets the asking port's mask to the kinds listed, once each and in ascending order, and leaves the queue
and NOTICES_LOST; a list with a code that is no kind that goes to the port is refused MALFORMED (R176). -/
def Obligations.SetNoticeMaskSetsTheMask : Prop :=
  (∀ (s : State) (p : Port) (kinds : List NoticeKind), s.canTake p → kinds.length ≤ 19 →
    (∀ k ∈ kinds, k ∈ kindsOf p) →
      exec (.setNoticeMask p (kindList kinds)) s = .next
        ((s.answered p 0x03#8 .ok (kindList (allNoticeKinds.filter fun k => k ∈ kinds))).setPort p
          { (s.answered p 0x03#8 .ok (kindList (allNoticeKinds.filter fun k => k ∈ kinds))).port p with
            mask := allNoticeKinds.filter fun k => k ∈ kinds })) ∧
  ∀ (s : State) (p : Port) (codes : List Byte), s.canTake p → codes.length ≤ 19 →
    (∃ b ∈ codes, ∀ k ∈ kindsOf p, b.toNat ≠ k.code) →
    exec (.setNoticeMask p (be 1 codes.length ++ codes)) s = .next (s.answered p 0x03#8 .malformed [])

/-- PORT RESET of the Booth or the Hire port gives that port the values of R165 and touches nothing else; of the Operator
port it sets the pending self-reset, carried out later (R177). That the answer's flag is one byte, 1 or 0, and that the
answer of the Operator port's own reset counts the notices queued at the command and reports no unread answer, are the
MODEL's choices (log entries 10 and 35). -/
def Obligations.PortResetResetsOnePort : Prop :=
  ∀ s : State, s.canTake .operator →
    exec (.portReset .operator [0x01#8]) s = .next
      ((s.answered .operator 0x67#8 .ok (be 1 s.ports.booth.queue.length ++ flagByte s.ports.booth.answer.isSome)).setPort
        .booth ⟨none, none, [], kindsOf .booth, false⟩) ∧
    exec (.portReset .operator [0x02#8]) s = .next
      ((s.answered .operator 0x67#8 .ok (be 1 s.ports.hire.queue.length ++ flagByte s.ports.hire.answer.isSome)).setPort
        .hire ⟨none, none, [], kindsOf .hire, false⟩) ∧
    exec (.portReset .operator [0x03#8]) s = .next
      { s.answered .operator 0x67#8 .ok (be 1 s.ports.operator.queue.length ++ [0x00#8]) with
        ports := { (s.answered .operator 0x67#8 .ok (be 1 s.ports.operator.queue.length ++ [0x00#8])).ports with
          selfReset := true } }

/-- CLEAR FAULTS clears the flags listed, and the record becomes none when no flag is left set; FAULT_N follows the flags;
the answer carries the flags and the record as they stand after it. On the other ports it is refused WRONG_PORT, and a
code outside 1 to 3 is refused MALFORMED (R184). That a flag is one byte, 1 or 0, is the MODEL's choice (log entry 10). -/
def Obligations.ClearFaultsClearsTheFlagsListed : Prop :=
  (∀ (s : State) (l : List FlagName), s.canTake .operator → l.length ≤ 3 →
    ∀ c : FaultCapture, c.held = s.faults.held → c.alertSeen = (s.faults.alertSeen && .alertSeen ∉ l) →
      c.severeSeen = (s.faults.severeSeen && .severeSeen ∉ l) →
      c.multipleSevere = (s.faults.multipleSevere && .multipleSevere ∉ l) →
      c.record = (if c.alertSeen || c.severeSeen || c.multipleSevere then s.faults.record else none) →
      ∃ t, exec (.clearFaults .operator (flagList l)) s = .next t ∧
        t = { s.answered .operator 0x63#8 .ok (flagByte c.alertSeen ++ flagByte c.severeSeen
          ++ flagByte c.multipleSevere ++ c.recordBytes) with faults := c } ∧
        t.faultN = (c.alertSeen || c.severeSeen)) ∧
  (∀ (s : State) (p : Port) (params : List Byte), s.canTake p → p ≠ .operator → params.length ≤ 250 →
    exec (.clearFaults p params) s = .next (s.answered p 0x63#8 .wrongPort [])) ∧
  ∀ (s : State) (codes : List Byte), s.canTake .operator → codes.length ≤ 3 →
    (∃ b ∈ codes, b.toNat = 0 ∨ 3 < b.toNat) →
    exec (.clearFaults .operator (be 1 codes.length ++ codes)) s = .next (s.answered .operator 0x63#8 .malformed [])

/-! ### Reads -/

/-- The reads of the tables are taken on every port, answer with the record's fields and change nothing: READ DESK, READ
BOOTH, READ INTERPRETER (R8, R43), READ PROGRAM (R58), READ HIRE (R113), READ RECEIVER (R95), READ DAY SUMMARY (R163).
The layout of the fields is the MODEL's choice where log entry 10 says so; so are the last-off-air cause that READ DESK
carries (R170), taken from the desk's program and sent with it (log entry 18), and a READ INTERPRETER that finds no entry
and carries no field, with its value in two bytes under both selectors (log entries 31 and 37), the presence bytes of a
relay reason and of a SETTLING hire's frozen charges (log entry 40), and the code of the configured field (log entry 42).
READ INTERPRETER, READ HIRE and READ RECEIVER refuse a selector or part that is no name and a value out of range MALFORMED
(R8, R95, R113); that this refusal carries none of the counts is the MODEL's choice (log entry 46). -/
def Obligations.TableReadsAnswerAndChangeNothing : Prop :=
  ∀ (s : State) (p : Port) (hireCounts registryCounts dayCounts : List Byte) (lineBytes chargeBytes : Hire → List Byte)
    (receiverBytes : Receiver → List Byte) (countBytes : DayCounters → List Byte), s.canTake p →
    hireCounts = be 2 s.hires.records.length ++ be 2 (s.hires.records.countP fun h => h.state = .settling)
      ++ be 2 s.hires.counter →
    registryCounts = be 2 s.registry.receivers.length ++ be 1 s.registry.threshold
      ++ be 1 (if s.registry.stocktake.running then 2 else 1) ++ be 2 s.registry.stocktake.marksLeft →
    (∀ h, lineBytes h = be 2 h.number ++ be 1 (match h.state with | .opened => 1 | .settling => 2) ++ be 3 h.badge
      ++ be 1 h.plan.val ++ be 3 h.deposit ++ optProgBytes h.preset ++ be 4 h.openedAt.abs ++ flagByte h.overdue
      ++ flagByte h.suspect ++ optBytes 4 (h.closedAt.map HallTime.abs) ++ optBytes 2 h.closingPos
      ++ be 1 h.lines.length
      ++ h.lines.flatMap fun l => be 2 l.receiver
        ++ be 1 (match l.state with | .out => 1 | .returned => 2 | .lost => 3) ++ optBytes 4 (l.base.map BitVec.toNat)
        ++ be 4 l.carried.toNat ++ optBytes 4 (l.returnTime.map HallTime.abs)
        ++ optBytes 4 (l.outageAtReturn.map BitVec.toNat)) →
    (∀ h, chargeBytes h = be 2 h.number ++ be 1 (match h.state with | .opened => 1 | .settling => 2)
      ++ optBytes 2 h.closingPos ++ match h.account with
        | none => be 1 0
        | some a => be 1 1 ++ be 1 a.lines.length
          ++ a.lines.flatMap (fun l => be 1 (if l.outcome = .lost then 2 else 1) ++ be 3 l.minutes ++ be 3 l.gross
            ++ be 3 l.credited ++ be 3 l.charge)
          ++ be 4 a.total ++ be 4 (BitVec.ofInt 32 a.balance).toNat) →
    (∀ r, receiverBytes r = be 2 r.number ++ be 1 (match r.state with
        | .ready => 1 | .charging => 2 | .onHire => 3 | .unracked => 4 | .lost => 5 | .withdrawn => 6)
      ++ optBytes 2 r.hire ++ optBytes 1 r.battery ++ optBytes 2 (r.slot.map fun k => k.val + 1) ++ be 2 r.issues
      ++ flagByte r.mark) →
    (∀ c, countBytes c = be 4 c.hiresOpened ++ be 4 c.hiresSettled ++ be 4 c.issued ++ be 4 c.returned
      ++ be 4 c.writtenOff ++ be 4 c.charges ++ be 4 c.refunds ++ be 4 c.due) →
    dayCounts = be 2 s.session.dayNumber ++ countBytes s.session.counters →
    (∀ d : DeskId, exec (.readDesk p (deskBytes d)) s = .next (s.answered p 0x16#8 .ok
      (be 1 (s.desk d).state.code ++ optBytes 2 (s.desk d).state.id?
        ++ optBytes 1 (match (s.desk d).state with | .live _ o => some o.code | _ => none)
        ++ be 1 (s.desk d).selected.val ++ be 2 (s.desk d).turnSeconds ++ flagByte (s.desk d).turnDue
        ++ be 1 (s.desk d).feed.val ++ relayBytes (s.desk d).relay ++ optProgBytes (s.deskProgram d)
        ++ optBytes 1 ((s.deskProgram d).map fun p => (s.program p).lastCause.code)))) ∧
    (∀ b : Fin 24, exec (.readBooth p (be 1 (b.val + 1))) s = .next (s.answered p 0x17#8 .ok
      (optProgBytes (s.boothConfig b).outputs.a ++ optProgBytes (s.boothConfig b).outputs.b
        ++ be 1 (s.boothConfig b).mode.code ++ be 1 (s.boothConfig b).window ++ be 1 (s.boothConfig b).policy.code
        ++ be 1 (s.boothConfig b).turnLimit
        ++ optBytes 1 (((List.finRange 3).find? fun q => (s.desk ⟨b, q⟩).state.isLive).map fun q => q.val + 1)
        ++ flagByte (s.request b).isSome))) ∧
    (∀ id : Nat, 1 ≤ id → id ≤ 65535 → exec (.readInterpreter p (be 1 1 ++ be 2 id)) s = .next
      (match s.interpreter id with
        | some e => s.answered p 0x64#8 .ok (be 2 e.id ++ optDeskBytes e.desk ++ be 3 e.onAir ++ be 2 e.turns
            ++ be 3 e.prevOnAir ++ be 2 e.prevTurns ++ be 1 s.booth.interpreters.length)
        | none => s.answered p 0x64#8 .unknown [])) ∧
    (∀ k : Nat, 1 ≤ k → k ≤ 96 → exec (.readInterpreter p (be 1 2 ++ be 2 k)) s = .next
      (match s.booth.interpreters[k - 1]? with
        | some e => s.answered p 0x64#8 .ok (be 2 e.id ++ optDeskBytes e.desk ++ be 3 e.onAir ++ be 2 e.turns
            ++ be 3 e.prevOnAir ++ be 2 e.prevTurns ++ be 1 s.booth.interpreters.length)
        | none => s.answered p 0x64#8 .empty [])) ∧
    (∀ q : Prog, exec (.readProgram p (be 1 q.val)) s = .next (s.answered p 0x18#8 .ok
      (be 1 (if (s.program q).config.configured then 1 else 2)
        ++ [(s.program q).config.label.c1, (s.program q).config.label.c2, (s.program q).config.label.c3]
        ++ be 1 (s.program q).config.priority.code ++ be 1 (s.program q).config.quality.code
        ++ be 1 (s.program q).config.engagement.code ++ be 1 (s.program q).radiation.code ++ be 2 (s.program q).demand
        ++ be 4 (s.program q).outage.toNat ++ be 1 (s.program q).shedCount.toNat
        ++ be 4 (s.program q).outageBase.toNat ++ optDeskBytes (s.program q).liveDesk
        ++ be 1 (s.program q).lastCause.code ++ optDeskBytes (s.program q).derivedSource
        ++ be 1 (s.program q).level.code))) ∧
    (∀ n : Nat, 1 ≤ n → n ≤ 9999 → ∀ lines : Bool,
      exec (.readHire p (be 1 1 ++ be 2 n ++ be 1 (if lines then 1 else 2))) s = .next
        (match s.hire n with
          | some h => s.answered p 0x35#8 .ok ((if lines then lineBytes h else chargeBytes h) ++ hireCounts)
          | none => s.answered p 0x35#8 .unknown hireCounts)) ∧
    (∀ n : Nat, 1 ≤ n → n ≤ 512 → ∀ lines : Bool,
      exec (.readHire p (be 1 2 ++ be 2 n ++ be 1 (if lines then 1 else 2))) s = .next
        (match s.hires.records[n - 1]? with
          | some h => s.answered p 0x35#8 .ok ((if lines then lineBytes h else chargeBytes h) ++ hireCounts)
          | none => s.answered p 0x35#8 .empty hireCounts)) ∧
    (∀ n : Nat, 1 ≤ n → n ≤ 65535 → exec (.readReceiver p (be 1 1 ++ be 2 n)) s = .next
      (match s.receiver n with
        | some r => s.answered p 0x36#8 .ok (receiverBytes r ++ registryCounts)
        | none => s.answered p 0x36#8 .unknown registryCounts)) ∧
    (∀ n : Nat, 1 ≤ n → n ≤ 2048 → exec (.readReceiver p (be 1 2 ++ be 2 n)) s = .next
      (match s.registry.receivers[n - 1]? with
        | some r => s.answered p 0x36#8 .ok (receiverBytes r ++ registryCounts)
        | none => s.answered p 0x36#8 .empty registryCounts)) ∧
    (∀ k : Fin 512, exec (.readReceiver p (be 1 3 ++ be 2 (k.val + 1))) s = .next
      (match (s.registry.slots.get k).bind s.receiver with
        | some r => s.answered p 0x36#8 .ok (receiverBytes r ++ registryCounts)
        | none => s.answered p 0x36#8 .empty registryCounts)) ∧
    (∀ k v w : Byte, (k.toNat ≠ 1 ∧ k.toNat ≠ 2) ∨ num [v, w] = 0 ∨ (k.toNat = 2 ∧ 96 < num [v, w]) →
      exec (.readInterpreter p [k, v, w]) s = .next (s.answered p 0x64#8 .malformed [])) ∧
    (∀ k v w part : Byte, (k.toNat ≠ 1 ∧ k.toNat ≠ 2) ∨ (part.toNat ≠ 1 ∧ part.toNat ≠ 2) ∨ num [v, w] = 0 ∨
        (k.toNat = 1 ∧ 9999 < num [v, w]) ∨ (k.toNat = 2 ∧ 512 < num [v, w]) →
      exec (.readHire p [k, v, w, part]) s = .next (s.answered p 0x35#8 .malformed [])) ∧
    (∀ k v w : Byte, (k.toNat ≠ 1 ∧ k.toNat ≠ 2 ∧ k.toNat ≠ 3) ∨ num [v, w] = 0 ∨
        (k.toNat = 2 ∧ 2048 < num [v, w]) ∨ (k.toNat = 3 ∧ 512 < num [v, w]) →
      exec (.readReceiver p [k, v, w]) s = .next (s.answered p 0x36#8 .malformed [])) ∧
    exec (.readDaySummary p []) s = .next
      (match s.session.summary with
        | some d => s.answered p 0x65#8 .ok (be 2 d.day ++ be 4 d.closing.abs ++ flagByte d.valid ++ countBytes d.counters
            ++ (d.outages.rows.flatMap fun x => be 4 x.toNat) ++ be 1 d.entries ++ dayCounts)
        | none => s.answered p 0x65#8 .empty dayCounts)

/-- READ STATUS is answered in full even while STARTING is set, on every port; READ FAULTS carries the flags, FAULT_N and
the capture record, all 0 when there is none; READ CAPABILITY carries the fixed counts and a silicon revision from 1
to 255, the same in every state; READ PLAN gives the committed plan, or the shadow under a hold, and is refused
NOT_ACTIVE for the shadow without one. None of them changes anything (R68, R169, R171, R172, R183). That a flag is one byte,
1 or 0, and the layout of the fields (log entry 10), that READ STATUS sends the port's flags as the status byte (log entry
36), that READ PLAN carries the candidate's bank without its time (log entry 28), and the code of the configured field (log
entry 42) are the MODEL's choices. -/
def Obligations.StatusReadsAnswerAndChangeNothing : Prop :=
  (∀ (s : State) (p : Port), s.powered = true → s.resetAsserted = false → (s.port p).request = none →
    (p = .operator → s.ports.selfReset = false) →
    exec (.readStatus p []) s = .next (s.answered p 0x01#8 .ok
      ([(s.taken p 0x01#8 []).statusByte p] ++ be 1 (s.port p).queue.length ++ be 1 s.session.state.code
        ++ flagByte s.planner.hold.isSome ++ be 2 s.session.clock.day ++ be 3 s.session.clock.second
        ++ be 4 s.session.clock.abs ++ flagByte s.session.valid ++ be 1 (if s.session.tickLost then 2 else 1)
        ++ be 2 s.session.restartCount.toNat ++ be 1 s.session.restartCause.code ++ be 1 s.link.phase.code
        ++ be 1 s.link.pendingCount ++ flagByte s.link.planKey ++ flagByte s.link.readyRead
        ++ flagByte s.link.episode ++ be 1 s.planner.bank.val ++ s.faultBytes
        ++ be 1 (if s.startup = .done then 2 else 1)))) ∧
  (∀ (s : State) (p : Port), s.canTake p →
    exec (.readFaults p []) s = .next (s.answered p 0x62#8 .ok
      (flagByte s.faults.alertSeen ++ flagByte s.faults.severeSeen ++ flagByte s.faults.multipleSevere
        ++ flagByte (s.faults.alertSeen || s.faults.severeSeen)
        ++ match s.faults.record with
          | none => be 1 0 ++ be 1 0 ++ be 2 0 ++ be 4 0
          | some r => be 1 r.kind.code ++ be 1 r.kind.classCode ++ be 2 r.context ++ be 4 r.time.abs))) ∧
  (∃ revision : Nat, 1 ≤ revision ∧ revision ≤ 255 ∧ ∀ (s : State) (p : Port), s.canTake p →
    exec (.readCapability p []) s = .next (s.answered p 0x04#8 .ok
      (be 1 24 ++ be 1 3 ++ be 1 32 ++ be 2 2048 ++ be 2 512 ++ be 1 64 ++ be 1 96 ++ be 1 16 ++ be 1 8
        ++ be 2 512 ++ be 1 revision))) ∧
  ∀ (s : State) (p : Port), s.canTake p →
    exec (.readPlan p [0x01#8]) s = .next (s.answered p 0x68#8 .ok
      (be 1 s.planner.bank.val ++ be 1 (s.planner.budgets.get s.planner.bank) ++ be 1 s.planner.slotsInUse
        ++ be 1 s.planner.lines.val ++ optBytes 1 (s.planner.candidate.map fun c => c.1.val)
        ++ flagByte s.planner.hold.isSome
        ++ be 1 ((List.finRange 32).countP fun q => (s.program q).radiation.isCarried)
        ++ (List.finRange 32).flatMap fun q =>
          be 1 (match (s.program q).radiation with
            | .unconfigured => 1 | .carried => 2 | .demoted => 3 | .shed => 4)
          ++ be 1 (match (s.program q).config.quality with | .standard => 1 | .high => 2))) ∧
    (∀ h, s.planner.hold = some h →
      exec (.readPlan p [0x02#8]) s = .next (s.answered p 0x68#8 .ok ((List.finRange 32).flatMap fun q =>
        be 1 (if (h.programs.get q).configured then 1 else 2)
          ++ [(h.programs.get q).label.c1, (h.programs.get q).label.c2, (h.programs.get q).label.c3]
          ++ be 1 (h.programs.get q).priority.code ++ be 1 (h.programs.get q).quality.code
          ++ be 1 (h.programs.get q).engagement.code)) ∧
      exec (.readPlan p [0x03#8]) s = .next
        (s.answered p 0x68#8 .ok ((List.finRange 24).flatMap fun b =>
          optProgBytes (h.outputs.get b).a ++ optProgBytes (h.outputs.get b).b))) ∧
    (s.planner.hold = none →
      exec (.readPlan p [0x02#8]) s = .next (s.answered p 0x68#8 .notActive []) ∧
      exec (.readPlan p [0x03#8]) s = .next (s.answered p 0x68#8 .notActive []))

/-- SET TARIFF: WRONG_PORT on the other ports, MALFORMED for a plan above 7, and otherwise the whole plan written in
one step with each value clamped to its range, answered OK when no value was clamped and OK_CLAMPED when one was, with
the six fields as stored; no hire, account or queue changes (R135). READ TARIFF: OK on every port with the six
fields as they stand, MALFORMED for a plan above 7, and no change (R136). -/
def Obligations.TariffsAreSetAndRead : Prop :=
  (∀ (s : State) (p : Port) (params : List Byte), s.canTake p → p ≠ .operator → params.length ≤ 250 →
    exec (.setTariff p params) s = .next (s.answered p 0x5A#8 .wrongPort [])) ∧
  (∀ (s : State) (k g u c d l h : Nat), s.canTake .operator → k < 256 → g < 256 → u < 2 ^ 16 → c < 2 ^ 16 →
    d < 2 ^ 24 → l < 2 ^ 24 → h < 256 → ∀ params t, params = be 1 k ++ be 1 g ++ be 2 u ++ be 2 c ++ be 3 d ++ be 3 l
      ++ be 1 h → t = (⟨min 120 g, max 1 (min 1440 u), c, min 1000000 d, min 1000000 l, max 1 (min 240 h)⟩ : Tariff) →
    (7 < k → exec (.setTariff .operator params) s = .next (s.answered .operator 0x5A#8 .malformed [])) ∧
    ∀ plan : Fin 8, plan.val = k → exec (.setTariff .operator params) s = .next
      { s.answered .operator 0x5A#8 (if t = ⟨g, u, c, d, l, h⟩ then .ok else .okClamped)
          (be 1 t.grace ++ be 2 t.unitLength ++ be 2 t.unitCharge ++ be 3 t.dailyCap ++ be 3 t.lostCharge
            ++ be 1 t.hireLimit) with
        settlement := { s.settlement with tariffs := s.settlement.tariffs.set plan t }
        retention := (s.rewrite 3).retention }) ∧
  ∀ (s : State) (p : Port) (b : Byte), s.canTake p →
    (∀ k : Fin 8, b.toNat = k.val → exec (.readTariff p [b]) s = .next (s.answered p 0x69#8 .ok
      (be 1 (s.settlement.tariffs.get k).grace ++ be 2 (s.settlement.tariffs.get k).unitLength
        ++ be 2 (s.settlement.tariffs.get k).unitCharge ++ be 3 (s.settlement.tariffs.get k).dailyCap
        ++ be 3 (s.settlement.tariffs.get k).lostCharge ++ be 1 (s.settlement.tariffs.get k).hireLimit))) ∧
    (7 < b.toNat → exec (.readTariff p [b]) s = .next (s.answered p 0x69#8 .malformed []))

/-- FIND BADGE gives, on every port, the hire whose record holds the badge, with its state, its number of lines and the
number of them OUT; UNKNOWN when no record holds it; MALFORMED for 0 and above 999,999. It changes nothing (R125). -/
def Obligations.FindBadgeGivesTheHire : Prop :=
  ∀ (s : State) (p : Port) (badge : Nat), s.canTake p → badge < 2 ^ 24 →
    (badge = 0 ∨ 999999 < badge → exec (.findBadge p (be 3 badge)) s = .next (s.answered p 0x3D#8 .malformed [])) ∧
    (1 ≤ badge → badge ≤ 999999 →
      (∀ h ∈ s.hires.records, h.badge = badge → (∀ g ∈ s.hires.records, g.badge = badge → g = h) →
        exec (.findBadge p (be 3 badge)) s = .next (s.answered p 0x3D#8 .ok
          (be 2 h.number ++ be 1 (match h.state with | .opened => 1 | .settling => 2) ++ be 1 h.lines.length
            ++ be 1 (h.lines.countP fun l => l.state = .out)))) ∧
      ((∀ h ∈ s.hires.records, h.badge ≠ badge) →
        exec (.findBadge p (be 3 badge)) s = .next (s.answered p 0x3D#8 .unknown [])))

/-! ### The Booth Section -/

/-- LOGIN seats an interpreter at a VACANT desk, creating an entry at the end of the table when the ID has none; it is
refused IN_USE at a desk that is not VACANT or for an ID at another desk, and TABLE_FULL with 96 entries (R9). LOGOUT
of a VACANT desk changes nothing, of a READY desk drops the request it made and vacates it, and of a LIVE desk releases
the air first, with one derivation pass (R10). Both are refused WRONG_PORT on the other ports, and MALFORMED for a desk out
of range; LOGIN also for the ID 0 (R9, R10, R169). That a relay status is sent as its code and then the reason as an
optional field of its own, and that LOGOUT's OK carries no field, are the MODEL's choices (log entries 40 and 22). -/
def Obligations.LoginAndLogoutSeatAndVacate : Prop :=
  (∀ (s : State) (p : Port) (params : List Byte), s.canTake p → p ≠ .booth → params.length ≤ 250 →
    exec (.login p params) s = .next (s.answered p 0x10#8 .wrongPort []) ∧
    exec (.logout p params) s = .next (s.answered p 0x11#8 .wrongPort [])) ∧
  (∀ (s : State) (b q h l : Byte), s.canTake .booth →
    (b.toNat = 0 ∨ 24 < b.toNat ∨ q.toNat = 0 ∨ 3 < q.toNat →
      exec (.login .booth [b, q, h, l]) s = .next (s.answered .booth 0x10#8 .malformed []) ∧
      exec (.logout .booth [b, q]) s = .next (s.answered .booth 0x11#8 .malformed [])) ∧
    exec (.login .booth [b, q, 0#8, 0#8]) s = .next (s.answered .booth 0x10#8 .malformed [])) ∧
  (relayBytes .ok = [1#8, 0#8] ∧ relayBytes (.broken .depth) = [2#8, 1#8, 1#8] ∧
    relayBytes (.broken .loop) = [2#8, 1#8, 2#8]) ∧
  (∀ (s : State) (d : DeskId) (id : Nat), s.canTake .booth → 1 ≤ id → id ≤ 65535 →
    ((s.desk d).state = .vacant →
      (s.interpreter id = none → s.booth.interpreters.length < 96 →
        exec (.login .booth (deskBytes d ++ be 2 id)) s = .next
          (((s.answered .booth 0x10#8 .ok
            (be 1 (s.desk d).selected.val ++ be 1 (s.desk d).feed.val ++ relayBytes (s.desk d).relay)).modifyDesk d
              fun r => { r with state := .ready id, turnSeconds := 0, turnDue := false }).setInterpreters
              (s.booth.interpreters ++ [⟨id, some d, 0, 0, 0, 0⟩]))) ∧
      (∀ e, s.interpreter id = some e → e.desk = none →
        exec (.login .booth (deskBytes d ++ be 2 id)) s = .next
          (((s.answered .booth 0x10#8 .ok
            (be 1 (s.desk d).selected.val ++ be 1 (s.desk d).feed.val ++ relayBytes (s.desk d).relay)).modifyDesk d
              fun r => { r with state := .ready id, turnSeconds := 0, turnDue := false }).setInterpreters
              (s.booth.interpreters.map fun e => if e.id = id then { e with desk := some d } else e))) ∧
      (s.interpreter id = none → 96 ≤ s.booth.interpreters.length →
        exec (.login .booth (deskBytes d ++ be 2 id)) s = .next (s.answered .booth 0x10#8 .tableFull []))) ∧
    ((s.desk d).state ≠ .vacant ∨ (∃ e, s.interpreter id = some e ∧ e.desk ≠ none) →
      exec (.login .booth (deskBytes d ++ be 2 id)) s = .next (s.answered .booth 0x10#8 .inUse []))) ∧
  ∀ (s : State) (d : DeskId), s.canTake .booth →
    ((s.desk d).state = .vacant →
      exec (.logout .booth (deskBytes d)) s = .next (s.answered .booth 0x11#8 .ok [])) ∧
    (∀ id, (s.desk d).state = .ready id →
      ((∀ r, s.request d.booth = some r → r.requester ≠ d.pos) →
        exec (.logout .booth (deskBytes d)) s = .next
          (((s.answered .booth 0x11#8 .ok []).setDeskState d .vacant).modifyInterpreter id
            fun e => { e with desk := none })) ∧
      (∀ r, s.request d.booth = some r → r.requester = d.pos →
        exec (.logout .booth (deskBytes d)) s = .next
          ((((s.answered .booth 0x11#8 .ok []).dropRequest d.booth .logout).setDeskState d .vacant).modifyInterpreter id
            fun e => { e with desk := none }))) ∧
    (∀ id o, (s.desk d).state = .live id o →
      exec (.logout .booth (deskBytes d)) s = .next
        (((((s.answered .booth 0x11#8 .ok []).release d).setDeskState d .vacant).modifyInterpreter id
          fun e => { e with desk := none }).derivationPass))

/-- What the moves of a desk change, each in full. A cut makes the desk READY, takes the program from it with the cause and
queues CUT (R16); going LIVE sets the desk, the program's live desk, the turns and the turn fields (R15); a drop
removes the request and queues HANDOVER_LAPSED with the cause's code (R33); an OVERRIDDEN cut drops the request of
which the cut desk was the live desk (R12, R16); an output switch records SWITCHED and goes on with the turn (R14). -/
def Obligations.DeskMovesChangeWhatTheirRulesSay : Prop :=
  (∀ (s : State) (d : DeskId) (id : Nat) (o : Output) (p : Prog) (cause : OffAirCause),
    (s.desk d).state = .live id o → (s.boothConfig d.booth).outputs.get o = some p →
    s.cut d cause =
      (((s.modifyDesk d fun r => { r with state := .ready id }).modifyProgram p fun r =>
        { r with liveDesk := none, lastCause := cause }).notify .cut (d.booth.val + 1) (d.pos.val + 1) p.val
        cause.code)) ∧
  (∀ (s : State) (d : DeskId) (id : Nat) (o : Output) (p : Prog),
    (s.desk d).state = .ready id → (s.boothConfig d.booth).outputs.get o = some p →
    s.goLive d o =
      (((s.modifyDesk d fun r => { r with state := .live id o, turnSeconds := 0, turnDue := false }).modifyProgram p
        fun r => { r with liveDesk := some d }).setInterpreters
          (s.booth.interpreters.map fun e => if e.id = id then { e with turns := min 65535 (e.turns + 1) } else e))) ∧
  (∀ (s : State) (b : Fin 24) (r : HandoverRequest) (cause : DropCause), s.request b = some r →
    s.dropRequest b cause =
      ({ s with booth := { s.booth with requests := s.booth.requests.set b none } }).notify .handoverLapsed
        (b.val + 1) (r.requester.val + 1) (r.liveDesk.val + 1)
        (match cause with | .expired => 1 | .cancelled => 2 | .logout => 3 | .overridden => 4 | .session => 5)) ∧
  (∀ (s : State) (d : DeskId) (id : Nat) (o : Output) (p : Prog),
    (s.desk d).state = .live id o → (s.boothConfig d.booth).outputs.get o = some p →
    ((∀ r, s.request d.booth = some r → r.liveDesk ≠ d.pos) → s.overrideCut d = s.cut d .overridden) ∧
    (∀ r, s.request d.booth = some r → r.liveDesk = d.pos →
      s.overrideCut d = (s.cut d .overridden).dropRequest d.booth .overridden)) ∧
  ∀ (s : State) (d : DeskId) (id : Nat) (o o' : Output) (p q : Prog), (s.desk d).state = .live id o' →
    (s.boothConfig d.booth).outputs.get o' = some q →
    s.switchOutput d o p =
      (((s.modifyProgram q fun r => { r with liveDesk := none, lastCause := .switched }).modifyDesk d
        fun r => { r with state := .live id o }).modifyProgram p fun r => { r with liveDesk := some d })

/-- MIC ON takes the air: the cut that an IMMEDIATE booth's other LIVE desk suffers comes first, then the cut that an
OVERRIDE target's desk in another booth suffers, then the desk goes LIVE (or switches its output) and one derivation
pass runs; the answer gives LIVE, the output, the target program and its level as resolved (R12 to R15). That the output is
sent without a presence byte is the MODEL's choice (log entry 39). -/
def Obligations.MicOnTakesTheAir : Prop :=
  ∀ (s : State) (d : DeskId) (id : Nat) (o : Output) (p : Prog) (marked : Option DeskId), s.canTake .booth →
    s.session.state = .live → (s.boothConfig d.booth).outputs.get o = some p →
    (marked = none → ∀ e, (s.program p).liveDesk = some e → e.booth = d.booth) →
    (∀ e, marked = some e → (s.program p).liveDesk = some e ∧ e.booth ≠ d.booth ∧
      (s.program p).config.engagement = .override) →
    ((s.desk d).state = .ready id → (∀ q, (s.desk ⟨d.booth, q⟩).state.isLive = false) →
      exec (.micOn .booth (deskBytes d ++ be 1 o.code)) s = .next
        ((((s.answered .booth 0x12#8 .ok
          (be 1 3 ++ be 1 o.code ++ be 1 p.val
            ++ be 1 ((((s.cutMarked marked).goLive d o).derivationPass).program p).level.code)).cutMarked
              marked).goLive d o).derivationPass)) ∧
    (∀ q id' o', (s.desk d).state = .ready id → (s.desk ⟨d.booth, q⟩).state = .live id' o' →
      (∀ k, k ≠ q → (s.desk ⟨d.booth, k⟩).state.isLive = false) → s.request d.booth = none →
      (s.boothConfig d.booth).mode = .immediate →
      exec (.micOn .booth (deskBytes d ++ be 1 o.code)) s = .next
        (((((s.answered .booth 0x12#8 .ok
          (be 1 3 ++ be 1 o.code ++ be 1 p.val
            ++ be 1 (((((s.cut ⟨d.booth, q⟩ .handedOver).cutMarked marked).goLive d o).derivationPass).program
              p).level.code)).cut ⟨d.booth, q⟩ .handedOver).cutMarked marked).goLive d o).derivationPass)) ∧
    (∀ o' held, (s.desk d).state = .live id o' → o' ≠ o → (s.boothConfig d.booth).outputs.get o' = some held →
      (∀ k, k ≠ d.pos → (s.desk ⟨d.booth, k⟩).state.isLive = false) →
      exec (.micOn .booth (deskBytes d ++ be 1 o.code)) s = .next
        ((((s.answered .booth 0x12#8 .ok
          (be 1 3 ++ be 1 o.code ++ be 1 p.val
            ++ be 1 ((((s.cutMarked marked).switchOutput d o p).derivationPass).program p).level.code)).cutMarked
              marked).switchOutput d o p).derivationPass))

/-- MIC ON creates a handover request in a NEGOTIATED booth with another LIVE desk, with the deadline at the window's end,
and is answered PENDING with the request's fields and the milliseconds that remain; the other booth's desk of an
OVERRIDE target is not cut (R12, R13, R25, R26). -/
def Obligations.MicOnAsksForANegotiatedHandover : Prop :=
  ∀ (s : State) (d : DeskId) (id : Nat) (o : Output) (p : Prog) (q : Fin 3), s.canTake .booth →
    s.session.state = .live → (s.desk d).state = .ready id → (s.boothConfig d.booth).outputs.get o = some p →
    (∀ e, (s.program p).liveDesk = some e → e.booth = d.booth ∨ (s.program p).config.engagement = .override) →
    q ≠ d.pos → (s.desk ⟨d.booth, q⟩).state.isLive = true →
    (∀ k, k ≠ q → (s.desk ⟨d.booth, k⟩).state.isLive = false) → s.request d.booth = none →
    (s.boothConfig d.booth).mode = .negotiated →
    exec (.micOn .booth (deskBytes d ++ be 1 o.code)) s = .next
      (((s.answered .booth 0x12#8 .pending (be 1 (d.pos.val + 1) ++ be 1 o.code ++ be 1 (q.val + 1)
          ++ be 3 ((s.boothConfig d.booth).window * 1000))).setRequest d.booth
        (some ⟨d.pos, o, s.now + (s.boothConfig d.booth).window * 1000, q⟩)).notify .handoverAsked
          (d.booth.val + 1) (d.pos.val + 1) (q.val + 1) o.code)

/-- MIC ON's checks in their order, none of which changes anything: NOT_LIVE, NO_INTERPRETER, NOT_CONFIGURED, the OK of a
desk already LIVE on the output, ENGAGED, and, while the booth holds a request, PENDING for its requester and BUSY for
another desk (R11, R12, R13). Before them, MIC ON is refused WRONG_PORT on the other ports, and MALFORMED for a desk out of
range or an output that is neither A nor B (R11, R169). That the OK of a desk already LIVE on the output carries no field is
the MODEL's choice (log entry 22). -/
def Obligations.MicOnChecksRunInOrder : Prop :=
  (∀ (s : State) (p : Port) (params : List Byte), s.canTake p → p ≠ .booth → params.length ≤ 250 →
    exec (.micOn p params) s = .next (s.answered p 0x12#8 .wrongPort [])) ∧
  (∀ (s : State) (b q x : Byte), s.canTake .booth →
    b.toNat = 0 ∨ 24 < b.toNat ∨ q.toNat = 0 ∨ 3 < q.toNat ∨ (x.toNat ≠ 1 ∧ x.toNat ≠ 2) →
    exec (.micOn .booth [b, q, x]) s = .next (s.answered .booth 0x12#8 .malformed [])) ∧
  ∀ (s : State) (d : DeskId) (o : Output), s.canTake .booth →
    (s.session.state ≠ .live →
      exec (.micOn .booth (deskBytes d ++ be 1 o.code)) s = .next (s.answered .booth 0x12#8 .notLive [])) ∧
    (s.session.state = .live →
      ((s.desk d).state = .vacant →
        exec (.micOn .booth (deskBytes d ++ be 1 o.code)) s = .next (s.answered .booth 0x12#8 .noInterpreter [])) ∧
      ((s.desk d).state ≠ .vacant →
        ((s.boothConfig d.booth).outputs.get o = none →
          exec (.micOn .booth (deskBytes d ++ be 1 o.code)) s = .next (s.answered .booth 0x12#8 .notConfigured [])) ∧
        (∀ p, (s.boothConfig d.booth).outputs.get o = some p →
          (∀ id, (s.desk d).state = .live id o →
            exec (.micOn .booth (deskBytes d ++ be 1 o.code)) s = .next (s.answered .booth 0x12#8 .ok [])) ∧
          ((∀ id, (s.desk d).state ≠ .live id o) →
            (∀ e, (s.program p).liveDesk = some e → e.booth ≠ d.booth →
              (s.program p).config.engagement = .interlock →
              exec (.micOn .booth (deskBytes d ++ be 1 o.code)) s = .next (s.answered .booth 0x12#8 .engaged [])) ∧
            ((∀ e, (s.program p).liveDesk = some e → e.booth = d.booth ∨ (s.program p).config.engagement = .override) →
              ∀ r q, s.request d.booth = some r → q ≠ d.pos → (s.desk ⟨d.booth, q⟩).state.isLive = true →
                (r.requester = d.pos → exec (.micOn .booth (deskBytes d ++ be 1 o.code)) s = .next
                  (s.answered .booth 0x12#8 .pending (be 1 (r.requester.val + 1) ++ be 1 r.output.code
                    ++ be 1 (r.liveDesk.val + 1) ++ be 3 (r.deadline - s.now)))) ∧
                (r.requester ≠ d.pos → exec (.micOn .booth (deskBytes d ++ be 1 o.code)) s = .next
                  (s.answered .booth 0x12#8 .busy [])))))))

/-- What a release does by the booth's handover request: RELEASED with none (R17); a seamless handover when the target is the
program held (R28); with another target, completion when it is free, completion after an OVERRIDDEN cut, or failure
under INTERLOCK with RELEASED written (R29). -/
def Obligations.AReleaseDecidesByTheRequest : Prop :=
  ∀ (s : State) (d : DeskId) (id : Nat) (o : Output) (held : Prog), (s.desk d).state = .live id o →
    (s.boothConfig d.booth).outputs.get o = some held →
    (s.request d.booth = none →
      s.release d = (s.modifyDesk d fun r => { r with state := .ready id }).modifyProgram held
        fun r => { r with liveDesk := none, lastCause := .released }) ∧
    ∀ r target, s.request d.booth = some r → (s.boothConfig d.booth).outputs.get r.output = some target →
      (target = held ∨ (s.program target).liveDesk = none →
        s.release d = ((((((s.modifyDesk d fun x => { x with state := .ready id }).modifyProgram held
          fun x => { x with liveDesk := none, lastCause := .handedOver }).goLive ⟨d.booth, r.requester⟩
            r.output).setRequest d.booth none).notify .handoverDone (d.booth.val + 1) (d.pos.val + 1)
              (r.requester.val + 1) 0))) ∧
      (∀ e, target ≠ held → (s.program target).liveDesk = some e →
        ((s.program target).config.engagement = .override →
          s.release d = (((((((s.modifyDesk d fun x => { x with state := .ready id }).modifyProgram held
            fun x => { x with liveDesk := none, lastCause := .handedOver }).overrideCut e).goLive
              ⟨d.booth, r.requester⟩ r.output).setRequest d.booth none).notify .handoverDone (d.booth.val + 1)
                (d.pos.val + 1) (r.requester.val + 1) 0))) ∧
        ((s.program target).config.engagement = .interlock →
          s.release d = ((((s.modifyDesk d fun x => { x with state := .ready id }).modifyProgram held
            fun x => { x with liveDesk := none, lastCause := .released }).setRequest d.booth none).notify
              .handoverFailed (d.booth.val + 1) (r.requester.val + 1) target.val (e.booth.val + 1))))

/-- MIC OFF of a LIVE desk releases the air, with one derivation pass; of a READY requester cancels its request; in every
other case it is answered OK and changes nothing; a desk out of range is refused MALFORMED (R18). CANCEL HANDOVER drops
the booth's request with cause CANCELLED and answers its requester and output, or is refused NOT_ACTIVE; it is refused
WRONG_PORT on the other ports, as MIC OFF is, and MALFORMED for a booth outside 1 to 24 (R18, R32). That MIC OFF's OK
carries no field is the MODEL's choice (log entry 22). -/
def Obligations.MicOffAndCancelEndTurnsAndRequests : Prop :=
  (∀ (s : State) (d : DeskId), s.canTake .booth →
    (∀ id o, (s.desk d).state = .live id o →
      exec (.micOff .booth (deskBytes d)) s = .next
        (((s.answered .booth 0x13#8 .ok []).release d).derivationPass)) ∧
    (∀ id r, (s.desk d).state = .ready id → s.request d.booth = some r → r.requester = d.pos →
      exec (.micOff .booth (deskBytes d)) s = .next
        ((s.answered .booth 0x13#8 .ok []).dropRequest d.booth .cancelled)) ∧
    ((s.desk d).state = .vacant ∨ ((s.desk d).state.isLive = false ∧
        ∀ r, s.request d.booth = some r → r.requester ≠ d.pos) →
      exec (.micOff .booth (deskBytes d)) s = .next (s.answered .booth 0x13#8 .ok []))) ∧
  (∀ (s : State) (a q : Byte), s.canTake .booth → a.toNat = 0 ∨ 24 < a.toNat ∨ q.toNat = 0 ∨ 3 < q.toNat →
    exec (.micOff .booth [a, q]) s = .next (s.answered .booth 0x13#8 .malformed [])) ∧
  (∀ (s : State) (p : Port) (params : List Byte), s.canTake p → p ≠ .booth → params.length ≤ 250 →
    exec (.micOff p params) s = .next (s.answered p 0x13#8 .wrongPort []) ∧
    exec (.cancelHandover p params) s = .next (s.answered p 0x14#8 .wrongPort [])) ∧
  (∀ (s : State) (a : Byte), s.canTake .booth → a.toNat = 0 ∨ 24 < a.toNat →
    exec (.cancelHandover .booth [a]) s = .next (s.answered .booth 0x14#8 .malformed [])) ∧
  ∀ (s : State) (b : Fin 24), s.canTake .booth →
    (∀ r, s.request b = some r → exec (.cancelHandover .booth (be 1 (b.val + 1))) s = .next
      ((s.answered .booth 0x14#8 .ok (be 1 (r.requester.val + 1) ++ be 1 r.output.code)).dropRequest b .cancelled)) ∧
    (s.request b = none → exec (.cancelHandover .booth (be 1 (b.val + 1))) s = .next
      (s.answered .booth 0x14#8 .notActive []))

/-- The expiry of a handover request whose deadline the timebase has reached (R1). Under LAPSE the request is dropped with cause EXPIRED and no desk or link moves (R31).
Under FORCE the live desk is cut with cause FORCED_HANDOVER, another booth's desk on the target is cut under OVERRIDE,
the requester goes LIVE, HANDOVER_DONE is queued with forced 1 and one pass runs; under INTERLOCK the handover fails,
and no desk, link or program changes (R30). Before the deadline, and with no request, the event changes nothing: the
MODEL's choice for events that cannot arise (log entry 14). -/
def Obligations.HandoverExpiryForcesOrLapses : Prop :=
  (∀ (s : State) (b : Fin 24), (∀ r, s.request b = some r → s.now < r.deadline) →
    exec (.handoverExpiry b) s = .next s) ∧
  ∀ (s : State) (b : Fin 24) (r : HandoverRequest), s.powered = true → s.request b = some r → r.deadline ≤ s.now →
    ((s.boothConfig b).policy = .lapse → exec (.handoverExpiry b) s = .next (s.dropRequest b .expired)) ∧
    ∀ id o held target, (s.boothConfig b).policy = .force → (s.desk ⟨b, r.liveDesk⟩).state = .live id o →
      (s.boothConfig b).outputs.get o = some held → (s.boothConfig b).outputs.get r.output = some target →
      (target = held ∨ (s.program target).liveDesk = none →
        exec (.handoverExpiry b) s = .next
          (((((s.cut ⟨b, r.liveDesk⟩ .forcedHandover).goLive ⟨b, r.requester⟩ r.output).setRequest b none).notify
            .handoverDone (b.val + 1) (r.liveDesk.val + 1) (r.requester.val + 1) 1).derivationPass)) ∧
      (∀ e, target ≠ held → (s.program target).liveDesk = some e →
        ((s.program target).config.engagement = .override →
          exec (.handoverExpiry b) s = .next
            ((((((s.cut ⟨b, r.liveDesk⟩ .forcedHandover).overrideCut e).goLive ⟨b, r.requester⟩ r.output).setRequest b
              none).notify .handoverDone (b.val + 1) (r.liveDesk.val + 1) (r.requester.val + 1) 1).derivationPass)) ∧
        ((s.program target).config.engagement = .interlock →
          exec (.handoverExpiry b) s = .next
            ((s.setRequest b none).notify .handoverFailed (b.val + 1) (r.requester.val + 1) target.val
              (e.booth.val + 1))))

/-! ### Relay and program derivation -/

/-- SELECT SOURCE sets the desk's selected source, runs the derivation pass once and answers what the pass has resolved; it
is refused NO_INTERPRETER at a VACANT desk, OWN_OUTPUT for an output of the desk's own booth, and NOT_CONFIGURED for a
program that is not configured (R42, R43). That the answer's program, level and relay reason have a presence byte each is the
MODEL's choice (log entry 40). -/
def Obligations.SelectSourceRunsThePass : Prop :=
  ∀ (s : State) (d : DeskId) (src : Source), s.canTake .booth →
    ((s.desk d).state = .vacant →
      exec (.selectSource .booth (deskBytes d ++ be 1 src.val)) s = .next
        (s.answered .booth 0x15#8 .noInterpreter [])) ∧
    ((s.desk d).state ≠ .vacant →
      (src ≠ 0 → (s.boothConfig d.booth).outputs.a = some src ∨ (s.boothConfig d.booth).outputs.b = some src →
        exec (.selectSource .booth (deskBytes d ++ be 1 src.val)) s = .next
          (s.answered .booth 0x15#8 .ownOutput [])) ∧
      (src ≠ 0 → (s.boothConfig d.booth).outputs.a ≠ some src → (s.boothConfig d.booth).outputs.b ≠ some src →
        (s.program src).config.configured = false →
        exec (.selectSource .booth (deskBytes d ++ be 1 src.val)) s = .next
          (s.answered .booth 0x15#8 .notConfigured [])) ∧
      (src = 0 ∨ ((s.boothConfig d.booth).outputs.a ≠ some src ∧ (s.boothConfig d.booth).outputs.b ≠ some src ∧
          (s.program src).config.configured = true) →
        ∀ u, u = (s.modifyDesk d fun r => { r with selected := src }).derivationPass →
        exec (.selectSource .booth (deskBytes d ++ be 1 src.val)) s = .next
          (((s.answered .booth 0x15#8 .ok (be 1 src.val ++ be 1 (u.desk d).feed.val ++ relayBytes (u.desk d).relay
            ++ optProgBytes (s.deskProgram d)
            ++ optBytes 1 ((s.deskProgram d).map fun p => (u.program p).level.code))).modifyDesk d
              fun r => { r with selected := src }).derivationPass)))

/-- What the derivation pass does (R45 to R51, R41). A program has level 0 exactly when it has no live desk, and its
derived source is its live desk. A program whose live desk selects floor is DIRECT. One whose live desk selects a
program q and that lies on no loop is resolved from q's level: DIRECT, RELAY or SECOND_RELAY above it, or DIRECT with a
desk BROKEN for DEPTH above a second relay; one on a loop is DIRECT with its desk BROKEN for LOOP. A desk that is not
LIVE is BROKEN for DEPTH above a second relay and OK otherwise. A BROKEN desk hears floor and an OK desk its selected
source, so no desk ever hears a second relay. The pass sets the key of each program whose derived source or level changes
and of each desk whose feed changes, and no other; it queues RELAY_FALLBACK and RELAY_RESTORED in ascending order of desk;
and beyond derived sources, levels, feeds, relay statuses, keys, the stall watch that the keys run and those notices it
changes nothing. -/
def Obligations.TheDerivationPassResolvesEveryLevel : Prop :=
  ∀ s t : State, t = s.derivationPass →
    (∀ p, (t.program p).derivedSource = (s.program p).liveDesk ∧
      ((t.program p).level = .floorFallback ↔ (s.program p).liveDesk = none)) ∧
    (∀ p d, (s.program p).liveDesk = some d → (s.desk d).selected = 0 → (t.program p).level = .direct) ∧
    (∀ p d, (s.program p).liveDesk = some d → (s.desk d).selected ≠ 0 →
      (s.onLoop p → (t.program p).level = .direct) ∧
      (¬ s.onLoop p → (t.program p).level =
        match (t.program (s.desk d).selected).level with
        | .floorFallback => .direct
        | .direct => .relay
        | .relay => .secondRelay
        | .secondRelay => .direct)) ∧
    (∀ p d, (s.program p).liveDesk = some d → s.deskProgram d = some p →
      (s.onLoop p → (t.desk d).relay = .broken .loop) ∧
      (¬ s.onLoop p → (t.desk d).relay =
        if (s.desk d).selected ≠ 0 ∧ (t.program (s.desk d).selected).level = .secondRelay then .broken .depth
        else .ok)) ∧
    (∀ d, (s.desk d).state.isLive = false → (t.desk d).relay =
      if (s.desk d).selected ≠ 0 ∧ (t.program (s.desk d).selected).level = .secondRelay then .broken .depth
      else .ok) ∧
    (∀ d, (t.desk d).feed = if (t.desk d).relay = .ok then (s.desk d).selected else 0) ∧
    (∀ d, (∀ p, s.deskProgram d = some p → (s.program p).liveDesk = some d) →
      ((s.desk d).state.isLive = true → s.deskProgram d ≠ none) → (t.desk d).feed ≠ 0 →
      (t.program (t.desk d).feed).level ≠ .secondRelay) ∧
    (∀ p, t.program p = { s.program p with
      derivedSource := (s.program p).liveDesk
      level := (t.program p).level }) ∧
    (∀ d, t.desk d = { s.desk d with feed := (t.desk d).feed, relay := (t.desk d).relay }) ∧
    (∀ p, t.link.programKeys.get p = (s.link.programKeys.get p ||
      decide ((s.program p).liveDesk ≠ (s.program p).derivedSource ∨ (t.program p).level ≠ (s.program p).level))) ∧
    (∀ d : DeskId, t.link.deskKeys.get d.idx = (s.link.deskKeys.get d.idx ||
      decide ((t.desk d).feed ≠ (s.desk d).feed))) ∧
    t.link = { s.link with
      programKeys := t.link.programKeys
      deskKeys := t.link.deskKeys
      stallSince := if s.link.phase = .idle ∧ t.link.anyPending = true ∧ s.link.ready = false
        then some (s.link.stallSince.getD s.now) else none } ∧
    t = (List.finRange 72).foldl (fun v i =>
        match (s.desk (deskAt i)).relay, (t.desk (deskAt i)).relay with
        | .ok, .broken c => v.notify .relayFallback ((deskAt i).booth.val + 1) ((deskAt i).pos.val + 1)
            (match c with | .depth => 1 | .loop => 2) (s.desk (deskAt i)).selected.val
        | .broken _, .ok => v.notify .relayRestored ((deskAt i).booth.val + 1) ((deskAt i).pos.val + 1)
            (s.desk (deskAt i)).selected.val (t.desk (deskAt i)).feed.val
        | _, _ => v)
      { s with programs := t.programs, booth := { s.booth with desks := t.booth.desks }, link := t.link }

/-- The law of who is on the air is kept by every step (R5, R6, R13, R21, R25, R33, R65); and so is the law between the
interpreter table and the desks: no ID twice, every desk that is not VACANT naming an ID of the table, and an entry's
current desk naming a desk exactly when that desk holds its ID (R7). -/
def Obligations.TheAirStaysConsistent : Prop :=
  (∀ s t : State, s.airConsistent → step s = .next t → t.airConsistent) ∧
  ∀ s t : State, s.seatsAgree → step s = .next t → t.seatsAgree

/-! ### Programs and the carrier plan -/

/-- SET BOOTH: LOCKED when it would change an output outside SETUP, NOT_CONFIGURED for an output that names an unconfigured
program, and otherwise the record written with its window and turn limit clamped. Under a hold the outputs go to the
shadow and the other fields to the committed record. A change of committed outputs turns every desk of the booth that
selects one of them to floor and runs one derivation pass (R3, R4, R65). -/
def Obligations.SetBoothWritesTheRecord : Prop :=
  (∀ (s : State) (b : Fin 24) (d : DeskId), (s.revertBooth b).desk d =
    if d.booth = b ∧ (s.desk d).selected ≠ 0 ∧ ((s.boothConfig b).outputs.a = some (s.desk d).selected ∨
        (s.boothConfig b).outputs.b = some (s.desk d).selected)
    then { s.desk d with selected := 0 } else s.desk d) ∧
  ∀ (s : State) (b : Fin 24) (x : Outputs) (mode : HandoverMode) (w : Nat) (policy : ExpiryPolicy) (l : Nat)
    (params : List Byte) (c : BoothConfig) (r : Result) (fields : List Byte), s.canTake .operator → x.legal →
    w < 256 → l < 256 →
    params = be 1 (b.val + 1) ++ optProgBytes x.a ++ optProgBytes x.b ++ be 1 mode.code ++ be 1 w
      ++ be 1 policy.code ++ be 1 l →
    c = ⟨x, mode, max 5 (min 120 w), policy, max 10 (min 90 l)⟩ →
    r = (if c.window = w ∧ c.turnLimit = l then .ok else .okClamped) →
    fields = optProgBytes x.a ++ optProgBytes x.b ++ be 1 mode.code ++ be 1 c.window ++ be 1 policy.code
      ++ be 1 c.turnLimit →
    (s.session.state ≠ .setup → x ≠ s.plannedOutputs b →
      exec (.setBooth .operator params) s = .next (s.answered .operator 0x54#8 .locked [])) ∧
    (s.session.state = .setup ∨ x = s.plannedOutputs b →
      ((∃ p, (x.a = some p ∨ x.b = some p) ∧ (s.plannedConfig p).configured = false) →
        exec (.setBooth .operator params) s = .next (s.answered .operator 0x54#8 .notConfigured [])) ∧
      ((∀ p, x.a = some p ∨ x.b = some p → (s.plannedConfig p).configured = true) →
        (∀ h, s.planner.hold = some h → exec (.setBooth .operator params) s = .next
          (((s.answered .operator 0x54#8 r fields).setBoothConfig b { c with outputs := (s.boothConfig b).outputs }).setHold
            (some { h with outputs := h.outputs.set b x }))) ∧
        (s.planner.hold = none →
          (x = (s.boothConfig b).outputs → exec (.setBooth .operator params) s = .next
            ((s.answered .operator 0x54#8 r fields).setBoothConfig b c)) ∧
          (x ≠ (s.boothConfig b).outputs → exec (.setBooth .operator params) s = .next
            ((((s.answered .operator 0x54#8 r fields).setBoothConfig b c).revertBooth b).derivationPass)))))

/-- SET PROGRAM: LOCKED when it would change a configured value outside SETUP, IN_USE when it would unconfigure a program
with demand, and otherwise the record written, Floor's four fixed values in place of those given. Under a hold the
shadow takes it; a committed write runs the allocation pass when it changes the configured value, the priority or the
quality, and an unconfiguring first takes the program from the outputs and the desks and runs the derivation pass
(R57, R59, R60, R62, R65). Where the program leaves a booth's output A, output B moves up to it; where it leaves output B
alone, output A stays; and every desk that selects a program no longer configured selects floor (R62). That program 0 is
never refused IN_USE, the ASCII bytes of a label, and the code of the configured field are the MODEL's choices (log
entries 16, 19 and 42). -/
def Obligations.SetProgramWritesTheRecord : Prop :=
  (∀ (x : Outputs) (p : Prog),
    (x.a = some p → x.b = some p → x.clear p = ⟨none, none⟩) ∧ (x.a = some p → x.b ≠ some p → x.clear p = ⟨x.b, none⟩) ∧
    (x.a ≠ some p → x.b = some p → x.clear p = ⟨x.a, none⟩) ∧ (x.a ≠ some p → x.b ≠ some p → x.clear p = x)) ∧
  (∀ (s t : State) (p : Prog), t = s.clearOutputs p →
    (∀ b, t.boothConfig b = { s.boothConfig b with outputs := (s.boothConfig b).outputs.clear p }) ∧
    t = { s with
      booth := { s.booth with configs := t.booth.configs }
      retention := (s.rewrite 5).retention }) ∧
  (∀ s t : State, t = s.dropSelections →
    (∀ d, t.desk d = { s.desk d with selected :=
      if (s.desk d).selected ≠ 0 ∧ (s.program (s.desk d).selected).config.configured = false then 0
      else (s.desk d).selected }) ∧
    t = { s with booth := { s.booth with desks := t.booth.desks } }) ∧
  ∀ (s : State) (p : Prog) (given c : ProgConfig) (r : Result) (fields : List Byte), s.canTake .operator →
    given.label.legal → c = (if p = 0 then ⟨true, given.label, .critical, .standard, .interlock⟩ else given) →
    r = (if c = given then .ok else .okClamped) → fields = c.params ++ flagByte s.planner.hold.isSome →
    (p ≠ 0 → s.session.state ≠ .setup → given.configured ≠ (s.plannedConfig p).configured →
      exec (.setProgram .operator (be 1 p.val ++ given.params)) s = .next (s.answered .operator 0x55#8 .locked [])) ∧
    (p = 0 ∨ s.session.state = .setup ∨ given.configured = (s.plannedConfig p).configured →
      (p ≠ 0 → (s.plannedConfig p).configured = true → given.configured = false → 0 < (s.program p).demand →
        exec (.setProgram .operator (be 1 p.val ++ given.params)) s = .next
          (s.answered .operator 0x55#8 .inUse [])) ∧
      (p = 0 ∨ (s.plannedConfig p).configured = false ∨ given.configured = true ∨ (s.program p).demand = 0 →
        (∀ h, s.planner.hold = some h →
          exec (.setProgram .operator (be 1 p.val ++ given.params)) s = .next
            ((s.answered .operator 0x55#8 r fields).setHold (some
              { programs := h.programs.set p c
                outputs := if (h.programs.get p).configured = true ∧ c.configured = false
                  then h.outputs.map fun x => x.clear p else h.outputs }))) ∧
        (s.planner.hold = none →
          (c.configured = (s.program p).config.configured → c.priority = (s.program p).config.priority →
            c.quality = (s.program p).config.quality →
            exec (.setProgram .operator (be 1 p.val ++ given.params)) s = .next
              ((s.answered .operator 0x55#8 r fields).setProgConfig p c)) ∧
          (c.configured = true ∨ (s.program p).config.configured = false →
            c.configured ≠ (s.program p).config.configured ∨ c.priority ≠ (s.program p).config.priority ∨
              c.quality ≠ (s.program p).config.quality →
            exec (.setProgram .operator (be 1 p.val ++ given.params)) s = .next
              (((s.answered .operator 0x55#8 r fields).setProgConfig p c).allocationPass)) ∧
          (c.configured = false → (s.program p).config.configured = true →
            exec (.setProgram .operator (be 1 p.val ++ given.params)) s = .next
              ((((((s.answered .operator 0x55#8 r fields).setProgConfig p c).modifyProgram p fun x =>
                { x with radiation := .unconfigured }).clearOutputs p).dropSelections).derivationPass).allocationPass))))

/-- PLAN HOLD makes the shadow, a copy of the committed configuration, or is refused BUSY (R64). PLAN RELEASE is refused
NOT_ACTIVE without a hold, and IN_USE with the lowest program that it would unconfigure and that has demand; otherwise
it applies the shadow, turns desks to floor, runs the derivation pass and then the allocation pass, and ends the hold
(R66). A program that the shadow unconfigures takes radiation state UNCONFIGURED, and no other field of a program or a
booth changes with the shadow (R66). Both commands are refused WRONG_PORT on the other ports (R64, R66). That PLAN HOLD's OK
carries no field is the MODEL's choice (log entry 22). -/
def Obligations.PlanHoldAndReleaseApplyTheShadow : Prop :=
  (∀ (s : State) (p : Port) (params : List Byte), s.canTake p → p ≠ .operator → params.length ≤ 250 →
    exec (.planHold p params) s = .next (s.answered p 0x56#8 .wrongPort []) ∧
    exec (.planRelease p params) s = .next (s.answered p 0x57#8 .wrongPort [])) ∧
  (∀ s : State, s.canTake .operator →
    (s.planner.hold ≠ none → exec (.planHold .operator []) s = .next (s.answered .operator 0x56#8 .busy [])) ∧
    (s.planner.hold = none → ∃ h, (∀ p, h.programs.get p = (s.program p).config) ∧
      (∀ b, h.outputs.get b = (s.boothConfig b).outputs) ∧
      exec (.planHold .operator []) s = .next ((s.answered .operator 0x56#8 .ok []).setHold (some h)))) ∧
  (∀ s : State, s.canTake .operator →
    (s.planner.hold = none → exec (.planRelease .operator []) s = .next (s.answered .operator 0x57#8 .notActive [])) ∧
    ∀ h, s.planner.hold = some h →
      (∀ p, (s.program p).config.configured = true → (h.programs.get p).configured = false →
        0 < (s.program p).demand →
        (∀ q < p, (s.program q).config.configured = true → (h.programs.get q).configured = false →
          (s.program q).demand = 0) →
        exec (.planRelease .operator []) s = .next (s.answered .operator 0x57#8 .inUse (be 1 p.val))) ∧
      ((∀ p, (s.program p).config.configured = true → (h.programs.get p).configured = false →
          (s.program p).demand = 0) →
        exec (.planRelease .operator []) s = .next
          ((((((s.answered .operator 0x57#8 .ok
            (be 1 ((List.finRange 32).countP fun p => (s.program p).config ≠ h.programs.get p)
              ++ be 1 ((List.finRange 24).countP fun b => (s.boothConfig b).outputs ≠ h.outputs.get b))).applyShadow
                h).revertAll.dropSelections).derivationPass).allocationPass).setHold none))) ∧
  ∀ (s : State) (h : Shadow) (p : Prog) (b : Fin 24) (d : DeskId),
    (s.applyShadow h).program p = { s.program p with
      config := h.programs.get p
      radiation := if (s.program p).config.configured = true ∧ (h.programs.get p).configured = false then .unconfigured
        else (s.program p).radiation } ∧
    ((s.applyShadow h).boothConfig b) = { s.boothConfig b with outputs := h.outputs.get b } ∧
    (s.revertAll.dropSelections.desk d).selected =
      (if (s.boothConfig d.booth).outputs.a = some (s.desk d).selected ∨
          (s.boothConfig d.booth).outputs.b = some (s.desk d).selected ∨
          (s.program (s.desk d).selected).config.configured = false then 0 else (s.desk d).selected)

/-- PLAN ABANDON, whole: WRONG_PORT on the other ports, NOT_ACTIVE without a hold, and otherwise the shadow discarded and the
hold ended, no committed field changed and no pass run; a new PLAN HOLD then copies the committed configuration as it
stands, and so it does after PLAN RELEASE (R67). That the OK of PLAN ABANDON and of PLAN HOLD carries no field is the
MODEL's choice (log entry 22). -/
def Obligations.PlanAbandonDiscardsTheShadow : Prop :=
  (∀ (s : State) (p : Port) (params : List Byte), s.canTake p → p ≠ .operator → params.length ≤ 250 →
    exec (.planAbandon p params) s = .next (s.answered p 0x58#8 .wrongPort [])) ∧
  (∀ (s : State) (h : Shadow), s.canTake .operator → s.planner.hold = some h →
    (∀ p, (s.program p).config.configured = true → (h.programs.get p).configured = false → (s.program p).demand = 0) →
    ∃ t, exec (.planRelease .operator []) s = .next t ∧ t.planner.hold = none ∧
      ∃ g, (∀ p, g.programs.get p = (t.program p).config) ∧ (∀ b, g.outputs.get b = (t.boothConfig b).outputs) ∧
        exec (.planHold .operator []) t = .next ((t.answered .operator 0x56#8 .ok []).setHold (some g))) ∧
  ∀ s : State, s.canTake .operator →
    (s.planner.hold = none → exec (.planAbandon .operator []) s = .next (s.answered .operator 0x58#8 .notActive [])) ∧
    (s.planner.hold ≠ none → ∃ t, exec (.planAbandon .operator []) s = .next t ∧
      t = { s.answered .operator 0x58#8 .ok [] with planner := { s.planner with hold := none } } ∧
      ∃ h, (∀ p, h.programs.get p = (s.program p).config) ∧ (∀ b, h.outputs.get b = (s.boothConfig b).outputs) ∧
        exec (.planHold .operator []) t = .next ((t.answered .operator 0x56#8 .ok []).setHold (some h)))

/-- SET BANK BUDGET stores at most 32, and runs the allocation pass when it changes the current bank's budget (R69). The
health lines set or remove the candidate (R70), unless RESET_N is asserted (R71), and a candidate held for 500 ms
becomes the current bank, queues BANK_CHANGED and runs the allocation pass, but not while start-up runs (R1, R70, R71).
That with main power off the lines alone change and the debounce does nothing, and that an expiry before its time and a
line change to the level shown are no events, are the MODEL's choices (log entries 9 and 14). -/
def Obligations.BanksFollowBudgetsAndHealthLines : Prop :=
  (∀ (s : State) (k : Fin 8) (v : Nat), s.canTake .operator → v < 256 →
    (k ≠ s.planner.bank ∨ min 32 v = s.planner.budgets.get s.planner.bank →
      exec (.setBankBudget .operator (be 1 k.val ++ be 1 v)) s = .next
        ((s.answered .operator 0x59#8 (if v ≤ 32 then .ok else .okClamped) (be 1 (min 32 v))).setBudget k (min 32 v))) ∧
    (k = s.planner.bank → min 32 v ≠ s.planner.budgets.get s.planner.bank →
      exec (.setBankBudget .operator (be 1 k.val ++ be 1 v)) s = .next
        (((s.answered .operator 0x59#8 (if v ≤ 32 then .ok else .okClamped) (be 1 (min 32 v))).setBudget k
          (min 32 v)).allocationPass))) ∧
  (∀ (s : State) (lines : Fin 8),
    (lines = s.planner.lines → exec (.healthLineChange lines) s = .next s) ∧
    (lines ≠ s.planner.lines → s.powered = true → s.resetAsserted = false →
      exec (.healthLineChange lines) s = .next { s with planner := { s.planner with
        lines := lines
        candidate := if lines = s.planner.bank then none else some (lines, s.now) } }) ∧
    (lines ≠ s.planner.lines → s.powered = false ∨ s.resetAsserted = true →
      exec (.healthLineChange lines) s = .next { s with planner := { s.planner with lines := lines } })) ∧
  (∀ s : State, s.powered = false ∨ s.resetAsserted = true ∨
      (∀ c, s.planner.candidate = some c → s.now < c.2 + 500) → exec .debounceExpiry s = .next s) ∧
  ∀ (s u : State) (b : Fin 8) (since : Nat), s.powered = true → s.resetAsserted = false →
    s.planner.candidate = some (b, since) → since + 500 ≤ s.now →
    u = ({ s with planner := { s.planner with bank := b, candidate := none } }).notify .bankChanged
      s.planner.bank.val b.val (s.planner.budgets.get b) 0 →
    (s.startup = .done → exec .debounceExpiry s = .next u.allocationPass) ∧
    (s.startup ≠ .done → exec .debounceExpiry s = .next u)

/-- What the allocation pass decides (R73 to R75). Unconfigured programs are not carried, and no program is carried above its
desired quality. The total fits the budget, or every program that is not CRITICAL is shed and every CRITICAL program is
carried at STANDARD; a CRITICAL program is never shed. The classes give way in their order, and within a class the
program with the smaller demand, or the higher number of equal demands, gives way first. When everything fits,
everything is carried as desired. -/
def Obligations.TheAllocationPassFollowsTheClasses : Prop :=
  ∀ (programs : Table Program 32) (budget : Nat) (c : Carriage), c = allocate programs budget →
    (∀ p, (programs.get p).config.configured = false → c.get p = none) ∧
    (∀ p, c.get p = some .high → (programs.get p).config.quality = .high) ∧
    (∀ p, (programs.get p).config.configured = true → (programs.get p).config.priority = .critical → c.get p ≠ none) ∧
    (c.total ≤ budget ∨ ∀ p, (programs.get p).config.configured = true →
      c.get p = if (programs.get p).config.priority = .critical then some .standard else none) ∧
    ((startCarriage programs).total ≤ budget → c = startCarriage programs) ∧
    (budget < (startCarriage programs).total → budget ≤ c.total) ∧
    (∀ p q, (programs.get p).config.configured = true → (programs.get q).config.configured = true →
      (programs.get p).config.priority = (programs.get q).config.priority → c.get p = none →
      c.get q ≠ some .high ∧ (c.get q ≠ none → (programs.get p).demand < (programs.get q).demand ∨
        ((programs.get p).demand = (programs.get q).demand ∧ q < p))) ∧
    (∀ p q, (programs.get p).config.configured = true → (programs.get q).config.configured = true →
      (programs.get p).config.priority = .high → c.get p ≠ some (programs.get p).config.quality →
      (programs.get q).config.priority = .low → c.get q = none) ∧
    (∀ p q, (programs.get p).config.configured = true → (programs.get q).config.configured = true →
      (programs.get p).config.priority = .critical → c.get p ≠ some (programs.get p).config.quality →
      (programs.get q).config.priority ≠ .critical → c.get q = none) ∧
    ∀ p q, (programs.get p).config.configured = true → (programs.get p).config.quality = .high →
      (programs.get p).config.priority = (programs.get q).config.priority → c.get p = some .standard →
      c.get q = some .high → (programs.get p).demand < (programs.get q).demand ∨
        ((programs.get p).demand = (programs.get q).demand ∧ q < p)

/-- What the pass leaves, and the law it keeps. Each program takes the radiation state of the pass's result, a program that
enters SHED counts it and the slots in use are the total (R76). The plan key is set when the carried programs, a carried
quality, the bank or the budget differ from what the previous pass left and used, and the key of each program whose
radiation state differs (R77). PROGRAM_SHED, PRESET_SHED and PROGRAM_RESTORED are queued in ascending program number (R76),
and then BUDGET_DEFICIT is raised with the budget when the total exceeds it (R75). Nothing else changes but the stall watch
that the keys run. And the law of the carrier plan holds after every step: outside
start-up the slots of the carried programs do not exceed the current bank's budget, unless every carried program is
CRITICAL and carried at STANDARD (R75). -/
def Obligations.TheCarriedProgramsFitTheBudget : Prop :=
  (∀ (s t : State) (c : Carriage), t = s.allocationPass → c = allocate s.programs s.budget →
    (∀ p, t.program p = { s.program p with
      radiation := if (s.program p).config.configured then
          (match c.get p with
            | none => .shed
            | some q => if q = (s.program p).config.quality then .carried else .demoted)
        else .unconfigured
      shedCount := if (s.program p).config.configured ∧ c.get p = none ∧ (s.program p).radiation ≠ .shed
        then (s.program p).shedCount + 1 else (s.program p).shedCount }) ∧
    t.carriedSlots = c.total ∧
    t.planner.lastPass.carried.Pairwise (fun x y => x.1 < y.1) ∧
    (∀ p q, (p, q) ∈ t.planner.lastPass.carried ↔ c.get p = some q) ∧
    (∀ p, t.planner.lastPass.states.get p = (t.program p).radiation) ∧
    t.planner = { s.planner with
      slotsInUse := c.total
      lastPass := ⟨s.planner.bank, s.planner.budgets.get s.planner.bank, t.planner.lastPass.carried,
        t.planner.lastPass.states⟩ } ∧
    t.link.planKey = (s.link.planKey || decide (t.planner.lastPass.carried ≠ s.planner.lastPass.carried ∨
      s.planner.bank ≠ s.planner.lastPass.bank ∨
      s.planner.budgets.get s.planner.bank ≠ s.planner.lastPass.budget)) ∧
    (∀ p, t.link.programKeys.get p = (s.link.programKeys.get p ||
      decide ((t.program p).radiation ≠ s.planner.lastPass.states.get p))) ∧
    t.link = { s.link with
      planKey := t.link.planKey
      programKeys := t.link.programKeys
      stallSince := if s.link.phase = .idle ∧ t.link.anyPending = true ∧ s.link.ready = false
        then some (s.link.stallSince.getD s.now) else none } ∧
    ∀ u v : State, u = { s with programs := t.programs, planner := t.planner, link := t.link } →
      v = (List.finRange 32).foldl (fun w p =>
        if (t.program p).radiation = .shed ∧ (s.program p).radiation ≠ .shed then
          (if (s.program p).demand = 0 then id else fun x => x.notify .presetShed p.val (s.program p).demand 0 0)
            (w.notify .programShed p.val (match (s.program p).config.priority with
              | .critical => 1 | .high => 2 | .low => 3) (s.program p).demand (s.planner.budgets.get s.planner.bank))
        else if (s.program p).radiation = .shed ∧ (t.program p).radiation = .carried then
          w.notify .programRestored p.val 1 (s.planner.budgets.get s.planner.bank) 0
        else if (s.program p).radiation = .shed ∧ (t.program p).radiation = .demoted then
          w.notify .programRestored p.val 2 (s.planner.budgets.get s.planner.bank) 0
        else w) u →
      t = if s.planner.budgets.get s.planner.bank < c.total
        then v.raiseFault .budgetDeficit (s.planner.budgets.get s.planner.bank) else v) ∧
  ∀ s t : State, s.carriedFits → step s = .next t → t.carriedFits

/-! ### The Distribution Link -/

/-- A send opportunity chooses the plan key, else the lowest program key, else the first desk key, clears it and sends the
record built from the present values; without an IDLE link, READY and a pending key nothing happens. A completion ends
an episode, and with READY asserted the next record follows at once; READY asserted to an IDLE link with a key pending
starts a record at once; and an opportunity left standing by any other event, a key set or the end of a start-up, is taken
before any time passes when no command waits (R82 to R88, R90). A record's bytes are those of R180. That the opportunity
left standing comes as an event of the idle step, that nothing is sent with main power off, that `lastSent` holds the bytes
of the last record taken whole, that an opportunity that cannot arise changes nothing, and when READY's level as last read
moves are the MODEL's choices (log entries 12, 9, 13, 14 and 38). -/
def Obligations.TheLinkSendsWhatItsKeysName : Prop :=
  (∀ s : State, s.pending = [] → s.powered = true → s.link.phase = .idle → s.link.ready = true →
    s.link.anyPending = true → ∃ t u record, step s = .next t ∧ step t = .next u ∧ u.now = s.now ∧
      u.link.phase = .sending record ∧ u.link.pendingCount + 1 = s.link.pendingCount ∧ u.pending = []) ∧
  (∀ s : State, s.powered = true → s.link.phase = .idle → s.link.ready = true →
    (s.link.planKey = true → ∀ carried, carried = (List.finRange 32).filterMap (fun p =>
        match (s.program p).radiation with
        | .carried => some (p, (s.program p).config.quality)
        | .demoted => some (p, .standard)
        | _ => none) → exec .sendOpportunity s = .next { s with link := { s.link with
      planKey := false
      phase := .sending (.plan s.planner.bank (s.planner.budgets.get s.planner.bank) carried)
      readyRead := true
      stallSince := none } }) ∧
    (s.link.planKey = false → ∀ p, s.link.programKeys.get p = true → (∀ q < p, s.link.programKeys.get q = false) →
      exec .sendOpportunity s = .next { s with link := { s.link with
        programKeys := s.link.programKeys.set p false
        phase := .sending (.route p (s.program p).derivedSource (s.program p).level (s.program p).radiation)
        readyRead := true
        stallSince := none } }) ∧
    (s.link.planKey = false → (∀ p, s.link.programKeys.get p = false) → ∀ d : DeskId,
      s.link.deskKeys.get d.idx = true → (∀ e : DeskId, e.idx < d.idx → s.link.deskKeys.get e.idx = false) →
      exec .sendOpportunity s = .next { s with link := { s.link with
        deskKeys := s.link.deskKeys.set d.idx false
        phase := .sending (.feed d (s.desk d).feed)
        readyRead := true
        stallSince := none } })) ∧
  (∀ s : State, s.powered = false ∨ s.link.phase ≠ .idle ∨ s.link.ready = false ∨ s.link.anyPending = false →
    exec .sendOpportunity s = .next s) ∧
  (∀ (s u : State) (r : Record), s.powered = true → s.link.phase = .sending r →
    u = { s with link := { s.link with
      phase := .idle
      readyRead := s.link.ready
      episode := false
      lastSent := (match r with
        | .plan bank budget carried => be 1 1 ++ be 1 bank.val ++ be 1 budget ++ be 1 carried.length
            ++ carried.flatMap fun e => be 1 e.1.val ++ be 1 (match e.2 with | .standard => 1 | .high => 2)
        | .route p source level radiation => be 1 2 ++ be 1 p.val
            ++ (match source with
              | none => [1#8, 0#8, 0#8]
              | some d => [2#8] ++ be 1 (d.booth.val + 1) ++ be 1 (d.pos.val + 1))
            ++ be 1 (match level with | .floorFallback => 0 | .direct => 1 | .relay => 2 | .secondRelay => 3)
            ++ be 1 (match radiation with | .unconfigured => 1 | .carried => 2 | .demoted => 3 | .shed => 4)
        | .feed d x => be 1 3 ++ be 1 (d.booth.val + 1) ++ be 1 (d.pos.val + 1) ++ be 1 (if x = 0 then 1 else 2)
            ++ be 1 x.val)
      stallSince := if s.link.anyPending ∧ s.link.ready = false then some (s.link.stallSince.getD s.now) else none } } →
    (s.link.ready = false → exec .transmissionComplete s = .next u) ∧
    (s.link.ready = true → exec .transmissionComplete s = exec .sendOpportunity u)) ∧
  ∀ (s u : State), s.powered = true →
    u = { s with link := { s.link with
      ready := true
      readyRead := if s.link.phase = .idle then true else s.link.readyRead
      stallSince := none } } →
    exec .readyAssert s = exec .sendOpportunity u ∧
    (s.link.phase ≠ .idle ∨ s.link.anyPending = false → exec .readyAssert s = .next u)

/-- READY deasserted to an IDLE link with a key pending starts the stall watch, and one that runs already runs on; at 2000 ms
it opens an episode and raises DL_STALL with the number of pending keys, and an open episode raises none (R1, R87, R88).
RESYNC DISTRIBUTION sets all 105 keys pending, and answers how many were clear (R89). That the expiry changes nothing before
2000 ms, as an event that cannot arise, and when READY's level as last read moves are the MODEL's choices (log entries 14
and 38). -/
def Obligations.TheStallWatchAndResyncRunOnTheKeys : Prop :=
  (∀ s : State, s.powered = true → exec .readyDeassert s = .next { s with link := { s.link with
    ready := false
    readyRead := if s.link.phase = .idle then false else s.link.readyRead
    stallSince := if s.link.phase = .idle ∧ s.link.anyPending = true then some (s.link.stallSince.getD s.now)
      else none } }) ∧
  (∀ (s : State) (since : Nat), s.powered = true → s.link.stallSince = some since →
    (s.link.episode = false → since + 2000 ≤ s.now → exec .stallWatchExpiry s = .next
      (({ s with link := { s.link with episode := true } }).raiseFault .dlStall s.link.pendingCount)) ∧
    (s.link.episode = true ∨ s.now < since + 2000 → exec .stallWatchExpiry s = .next s)) ∧
  ∀ s : State, s.canTake .operator → ∃ t, exec (.resyncDistribution .operator []) s = .next t ∧
    t = { s.answered .operator 0x66#8 .ok (be 1 (105 - s.link.pendingCount)) with link := t.link } ∧
    t.link.pendingCount = 105 ∧ t.link.planKey = true ∧ (∀ p, t.link.programKeys.get p = true) ∧
    (∀ i, t.link.deskKeys.get i = true) ∧
    t.link = { s.link with
      planKey := t.link.planKey
      programKeys := t.link.programKeys
      deskKeys := t.link.deskKeys
      stallSince := if s.link.phase = .idle ∧ s.link.ready = false then some (s.link.stallSince.getD s.now) else none }

/-! ### Receivers and racks -/

/-- ENROL RECEIVER creates a record in its place in ascending order, or is refused DUPLICATE or TABLE_FULL (R96). WITHDRAW
RECEIVER takes a receiver out of use by its state, a mark cleared with it (R97, R108). DELETE RECEIVER removes a WITHDRAWN
or LOST record and frees its slot, or is refused NOT_READY (R99). A number with no record is UNKNOWN. That WITHDRAW's refusal
ON_HIRE carries no field is the MODEL's choice (log entry 41). -/
def Obligations.ReceiversAreEnrolledWithdrawnAndDeleted : Prop :=
  (∀ (s : State) (n : Nat), s.canTake .operator → 1 ≤ n → n ≤ 65535 →
    ((∃ r ∈ s.registry.receivers, r.number = n) →
      exec (.enrolReceiver .operator (be 2 n)) s = .next (s.answered .operator 0x5E#8 .duplicate [])) ∧
    ((∀ r ∈ s.registry.receivers, r.number ≠ n) → 2048 ≤ s.registry.receivers.length →
      exec (.enrolReceiver .operator (be 2 n)) s = .next (s.answered .operator 0x5E#8 .tableFull [])) ∧
    ∀ l1 l2, s.registry.receivers = l1 ++ l2 → (∀ r ∈ l1, r.number < n) → (∀ r ∈ l2, n < r.number) →
      l1.length + l2.length < 2048 →
      exec (.enrolReceiver .operator (be 2 n)) s = .next
        ((s.answered .operator 0x5E#8 .ok (be 2 (l1.length + 1) ++ be 2 (l1.length + l2.length + 1))).setReceivers
          (l1 ++ ⟨n, .unracked, none, none, none, 0, false⟩ :: l2))) ∧
  (∀ (s : State) (n : Nat), s.canTake .operator → 1 ≤ n → n ≤ 65535 →
    (s.receiver n = none →
      exec (.withdrawReceiver .operator (be 2 n)) s = .next (s.answered .operator 0x5F#8 .unknown []) ∧
      exec (.deleteReceiver .operator (be 2 n)) s = .next (s.answered .operator 0x61#8 .unknown [])) ∧
    ∀ r, s.receiver n = some r →
      (r.state = .onHire →
        exec (.withdrawReceiver .operator (be 2 n)) s = .next (s.answered .operator 0x5F#8 .onHire [])) ∧
      (r.state = .withdrawn →
        exec (.withdrawReceiver .operator (be 2 n)) s = .next
          (s.answered .operator 0x5F#8 .ok (be 1 6 ++ optBytes 2 (r.slot.map slotNo)))) ∧
      (r.state = .ready ∨ r.state = .charging ∨ r.state = .unracked →
        exec (.withdrawReceiver .operator (be 2 n)) s = .next
          (((s.answered .operator 0x5F#8 .ok (be 1 6 ++ optBytes 2 (r.slot.map slotNo))).clearMark n).modifyReceiver n
            fun x => { x with state := .withdrawn })) ∧
      (r.state = .lost →
        exec (.withdrawReceiver .operator (be 2 n)) s = .next
          ((s.answered .operator 0x5F#8 .ok (be 1 6 ++ optBytes 2 (r.slot.map slotNo))).modifyReceiver n
            fun x => { x with state := .withdrawn, hire := none })) ∧
      (r.state ≠ .withdrawn → r.state ≠ .lost →
        exec (.deleteReceiver .operator (be 2 n)) s = .next (s.answered .operator 0x61#8 .notReady [])) ∧
      (r.state = .withdrawn ∨ r.state = .lost → ∀ l, l = s.registry.receivers.filter (fun x => x.number ≠ n) →
        (r.slot = none → exec (.deleteReceiver .operator (be 2 n)) s = .next
          ((s.answered .operator 0x61#8 .ok (be 2 l.length)).setReceivers l)) ∧
        (∀ k, r.slot = some k → exec (.deleteReceiver .operator (be 2 n)) s = .next
          (((s.answered .operator 0x61#8 .ok (be 2 l.length)).setSlot k none).setReceivers l)))) ∧
  ∀ (s : State) (n : Nat),
    (∀ r, s.receiver n = some r → r.mark = true → s.clearMark n =
      (s.modifyReceiver n fun x => { x with mark := false }).setStocktake
        { s.registry.stocktake with marksLeft := s.registry.stocktake.marksLeft - 1 }) ∧
    ((∀ r, s.receiver n = some r → r.mark = false) → s.clearMark n = s)

/-- REINSTATE RECEIVER, whole: MALFORMED for 0, UNKNOWN with no record, NOT_ACTIVE in any state but WITHDRAWN; a WITHDRAWN
receiver with a slot becomes READY with a battery at or above the threshold and CHARGING otherwise, and one without a
slot becomes UNRACKED; its mark and every other field stay (R98). -/
def Obligations.ReinstateReceiverPutsItBackIntoUse : Prop :=
  ∀ s : State, s.canTake .operator →
    exec (.reinstateReceiver .operator [0x00#8, 0x00#8]) s = .next (s.answered .operator 0x60#8 .malformed []) ∧
    ∀ n : Nat, 1 ≤ n → n ≤ 65535 →
      (s.receiver n = none →
        exec (.reinstateReceiver .operator (be 2 n)) s = .next (s.answered .operator 0x60#8 .unknown [])) ∧
      ∀ r, s.receiver n = some r →
        (r.state ≠ .withdrawn →
          exec (.reinstateReceiver .operator (be 2 n)) s = .next (s.answered .operator 0x60#8 .notActive [])) ∧
        (r.state = .withdrawn →
          (r.slot = none → exec (.reinstateReceiver .operator (be 2 n)) s = .next
            ((s.answered .operator 0x60#8 .ok (be 1 4)).modifyReceiver n fun x => { x with state := .unracked })) ∧
          (r.slot ≠ none → (∃ b, r.battery = some b ∧ s.registry.threshold ≤ b) →
            exec (.reinstateReceiver .operator (be 2 n)) s = .next
              ((s.answered .operator 0x60#8 .ok (be 1 1)).modifyReceiver n fun x => { x with state := .ready })) ∧
          (r.slot ≠ none → (∀ b, r.battery = some b → b < s.registry.threshold) →
            exec (.reinstateReceiver .operator (be 2 n)) s = .next
              ((s.answered .operator 0x60#8 .ok (be 1 2)).modifyReceiver n fun x => { x with state := .charging })))

/-- SET THRESHOLD stores 20 to 100 and places every racked receiver again by its battery, and answers how many changed state
(R100). RACK BATTERY records the level in every state, at most 100, and places a racked receiver again (R103). That its
answer sends the battery without a presence byte is the MODEL's choice (log entry 33). -/
def Obligations.BatteriesPlaceRackedReceivers : Prop :=
  (∀ (s : State) (v t : Nat) (f : Receiver → Receiver), s.canTake .operator → v < 256 → t = max 20 (min 100 v) →
    (∀ r, f r = if r.state = .ready ∨ r.state = .charging
      then { r with state := if ∃ b ∈ r.battery, t ≤ b then .ready else .charging } else r) →
    exec (.setThreshold .operator (be 1 v)) s = .next
      { s.answered .operator 0x5B#8 (if t = v then .ok else .okClamped)
          (be 1 t ++ be 2 (s.registry.receivers.countP fun r => (f r).state ≠ r.state)) with
        registry := { s.registry with receivers := s.registry.receivers.map f, threshold := t }
        retention := ((s.rewrite 6).rewrite 0).retention }) ∧
  ∀ (s : State) (n b : Nat), s.canTake .hire → 1 ≤ n → n ≤ 65535 → b < 256 →
    (s.receiver n = none →
      exec (.rackBattery .hire (be 2 n ++ be 1 b)) s = .next (s.answered .hire 0x38#8 .unknown [])) ∧
    ∀ r x, s.receiver n = some r →
      x = (if r.state = .ready ∨ r.state = .charging
        then (if s.registry.threshold ≤ min 100 b then .ready else .charging) else r.state) →
      exec (.rackBattery .hire (be 2 n ++ be 1 b)) s = .next
        ((s.answered .hire 0x38#8 (if b ≤ 100 then .ok else .okClamped) (be 1 x.code ++ be 1 (min 100 b))).modifyReceiver
          n fun y => { y with
            battery := some (min 100 b)
            state := if y.state = .ready ∨ y.state = .charging
              then (if s.registry.threshold ≤ min 100 b then .ready else .charging) else y.state })

/-- RACK SEATED: an ON_HIRE receiver is returned first, another receiver in the slot is freed from it (and becomes UNRACKED
with a notice if it was racked), and then the receiver is seated, its battery recorded, its state set by R102's table
and its mark cleared; a LOST receiver is answered RECOVERED (R101, R102). RACK REMOVED frees the slot of the receiver
the map names, which becomes UNRACKED with a notice if it was racked; NOT_ACTIVE for an empty slot (R104). In RACK SEATED's
answer the close flag and the way's code, the place of the clamped indicator, the slot and battery without a presence
byte, and the presence bytes of the hire, the flag and the way are the MODEL's choices (log entries 10, 32, 33 and 40).
Freeing a slot empties its map entry and the record's slot; seating empties the slot held before and sets the new entry
and the record's slot together (R94). -/
def Obligations.RackEventsSeatAndFree : Prop :=
  (∀ (s : State) (n : Nat) (r : Receiver), s.receiver n = some r →
    (r.slot = none → s.freeSlot n = s) ∧
    (∀ (j : Fin 512) (t : State), r.slot = some j → t = s.freeSlot n →
      (∀ i, t.registry.slots.get i = if i = j then none else s.registry.slots.get i) ∧
      t.registry.receivers = s.registry.receivers.map (fun x => if x.number = n then { x with slot := none } else x) ∧
      t = { s with
        registry := { s.registry with slots := t.registry.slots, receivers := t.registry.receivers }
        retention := (s.rewrite 0).retention }) ∧
    ∀ (k : Fin 512) (t : State), t = s.seat n k →
      (∀ i, t.registry.slots.get i =
        if i = k then some n else if r.slot = some i then none else s.registry.slots.get i) ∧
      t.registry.receivers = s.registry.receivers.map (fun x => if x.number = n then { x with slot := some k } else x) ∧
      t = { s with
        registry := { s.registry with slots := t.registry.slots, receivers := t.registry.receivers }
        retention := (s.rewrite 0).retention }) ∧
  (∀ (s : State) (n : Nat) (k : Fin 512) (b : Nat), s.canTake .hire → 1 ≤ n → n ≤ 65535 → b < 256 →
    (s.receiver n = none → exec (.rackSeated .hire (be 2 n ++ be 2 (k.val + 1) ++ be 1 b)) s = .next
      (s.answered .hire 0x37#8 .unknown [])) ∧
    ∀ r, s.receiver n = some r → ∀ (fields : List Byte) (x : ReceiverState) (u : State) (back : Option LineOutcome)
      (gone : Option Nat),
      x = (if r.state = .withdrawn then .withdrawn
        else if s.registry.threshold ≤ min 100 b then .ready else .charging) →
      fields = be 1 x.code ++ be 2 (k.val + 1) ++ be 1 (min 100 b) ++ optBytes 2 gone
        ++ optBytes 2 (back.map (·.hire)) ++ optBytes 1 (back.map fun o => if o.way.isSome then 1 else 0)
        ++ optBytes 1 ((back.bind (·.way)).map CloseWay.code)
        ++ optBytes 1 (if r.state = .lost then some (if 100 < b then 1 else 0) else none) →
      (r.state ≠ .onHire → back = none ∧
        u = s.answered .hire 0x37#8 (if r.state = .lost then .recovered else if b ≤ 100 then .ok else .okClamped) fields) →
      (r.state = .onHire → back = some (s.returnReceiver r).2 ∧
        u = ((s.answered .hire 0x37#8 (if b ≤ 100 then .ok else .okClamped) fields).returnReceiver r).1) →
      (s.registry.slots.get k = none ∨ s.registry.slots.get k = some n → gone = none) →
      (∀ m, s.registry.slots.get k = some m → m ≠ n → gone = some m) → s.rackMapAgrees →
      (gone = none → exec (.rackSeated .hire (be 2 n ++ be 2 (k.val + 1) ++ be 1 b)) s = .next
        ((((u.seat n k).modifyReceiver n fun y =>
          { y with battery := some (min 100 b), state := x, hire := if r.state = .lost then none else y.hire }).clearMark
            n))) ∧
      ∀ m q, gone = some m → s.receiver m = some q →
        (q.state = .ready ∨ q.state = .charging →
          exec (.rackSeated .hire (be 2 n ++ be 2 (k.val + 1) ++ be 1 b)) s = .next
            (((((u.pullFromRack m k 1).seat n k).modifyReceiver n fun y =>
              { y with battery := some (min 100 b), state := x, hire := if r.state = .lost then none else y.hire }).clearMark
                n))) ∧
        (q.state ≠ .ready → q.state ≠ .charging →
          exec (.rackSeated .hire (be 2 n ++ be 2 (k.val + 1) ++ be 1 b)) s = .next
            (((((u.freeSlot m).seat n k).modifyReceiver n fun y =>
              { y with battery := some (min 100 b), state := x, hire := if r.state = .lost then none else y.hire }).clearMark
                n)))) ∧
  (∀ (s : State) (k : Fin 512), s.canTake .hire →
    (s.registry.slots.get k = none → exec (.rackRemoved .hire (be 2 (k.val + 1))) s = .next
      (s.answered .hire 0x39#8 .notActive [])) ∧
    ∀ m q, s.registry.slots.get k = some m → s.receiver m = some q →
      (q.state = .ready ∨ q.state = .charging → exec (.rackRemoved .hire (be 2 (k.val + 1))) s = .next
        ((s.answered .hire 0x39#8 .ok (be 2 m ++ be 1 4)).pullFromRack m k 2)) ∧
      (q.state ≠ .ready → q.state ≠ .charging → exec (.rackRemoved .hire (be 2 (k.val + 1))) s = .next
        (((s.answered .hire 0x39#8 .ok (be 2 m ++ be 1 q.state.code)).clearMark m).freeSlot m))) ∧
  ∀ (s : State) (m : Nat) (k : Fin 512) (cause : Nat), s.pullFromRack m k cause =
    (((s.clearMark m).freeSlot m).modifyReceiver m fun x => { x with state := .unracked }).notify .receiverUnracked m
      (k.val + 1) cause 0

/-- The rack slot map and the records agree after every step, and the records stay in ascending order (R92, R94). -/
def Obligations.TheRackMapAgreesWithTheRecords : Prop :=
  ∀ s t : State, s.rackMapAgrees → step s = .next t → t.rackMapAgrees

/-- STOCKTAKE START marks every racked receiver and sets the deadline 300,000 ms on, or is refused BUSY (R107). STOCKTAKE END
unracks every receiver still marked, frees its slot and ends the stocktake, or is refused NOT_ACTIVE (R109). Its expiry,
once the timebase has reached the deadline, clears the marks, queues STOCKTAKE_ABANDONED and changes no state and no slot
(R1, R110); before that it changes nothing, the MODEL's choice for events that cannot arise (log entry 14). -/
def Obligations.TheStocktakeMarksEndsAndExpires : Prop :=
  (∀ s : State, s.canTake .hire →
    (s.registry.stocktake.running = true →
      exec (.stocktakeStart .hire []) s = .next (s.answered .hire 0x3A#8 .busy [])) ∧
    (s.registry.stocktake.running = false → ∀ k,
      k = s.registry.receivers.countP (fun r => r.state = .ready ∨ r.state = .charging) →
      exec (.stocktakeStart .hire []) s = .next
        (((s.answered .hire 0x3A#8 .ok (be 2 k ++ be 3 300000)).setReceivers
          (s.registry.receivers.map fun r => { r with mark := r.state = .ready ∨ r.state = .charging })).setStocktake
            ⟨true, some (s.now + 300000), k, k⟩)) ∧
    (s.registry.stocktake.running = false →
      exec (.stocktakeEnd .hire []) s = .next (s.answered .hire 0x3B#8 .notActive [])) ∧
    (s.registry.stocktake.running = true → ∃ slots,
      (∀ k, (∃ r ∈ s.registry.receivers, r.mark = true ∧ r.slot = some k) → slots.get k = none) ∧
      (∀ k, (∀ r ∈ s.registry.receivers, r.mark = true → r.slot ≠ some k) →
        slots.get k = s.registry.slots.get k) ∧
      exec (.stocktakeEnd .hire []) s = .next
        { s.answered .hire 0x3B#8 .ok (be 2 (s.registry.receivers.countP (·.mark))
            ++ be 2 s.registry.stocktake.markedAtStart) with
          registry := { s.registry with
            receivers := s.registry.receivers.map fun r =>
              if r.mark then { r with state := .unracked, slot := none, mark := false } else r
            slots := slots
            stocktake := ⟨false, none, 0, 0⟩ }
          retention := (s.rewrite 0).retention })) ∧
  ∀ s : State, s.powered = true →
    (∀ t, s.registry.stocktake.running = true → s.registry.stocktake.deadline = some t → t ≤ s.now →
      exec .stocktakeExpiry s = .next
        (({ s with
          registry := { s.registry with
            receivers := s.registry.receivers.map fun r => { r with mark := false }
            stocktake := ⟨false, none, 0, 0⟩ } } : State).notify .stocktakeAbandoned s.registry.stocktake.markedAtStart
              s.registry.stocktake.marksLeft 0 0)) ∧
    (s.registry.stocktake.running = false ∨ (∀ t, s.registry.stocktake.deadline = some t → s.now < t) →
      exec .stocktakeExpiry s = .next s)

/-! ### Hires -/

/-- OPEN HIRE's checks in their order, NO_CLOCK, TABLE_FULL, BADGE_ACTIVE with the hire, NOT_CONFIGURED, and for the first
receiver of the list that fails, UNKNOWN, NOT_READY or DUPLICATE with its number and its place (R115), and its effect: the
first free number from the counter, the record in its place with one OUT line for each receiver, the receivers issued, the
preset's demand raised and the day counters (R114, R116). That the answer's preset and its radiation state are one optional
field is the MODEL's choice (log entry 40). -/
def Obligations.OpenHireCreatesTheRecord : Prop :=
  (∀ s : State, s.presetBytes none = [0#8] ∧ ∀ p, s.presetBytes (some p) = [1#8] ++ be 1 p.val
    ++ be 1 (match (s.program p).radiation with | .unconfigured => 1 | .carried => 2 | .demoted => 3 | .shed => 4)) ∧
  ∀ (s : State) (badge : Nat) (plan : Fin 8) (deposit : Nat) (preset : Option Prog) (rs : List Nat)
    (params : List Byte), s.canTake .hire → 1 ≤ badge → badge ≤ 999999 → deposit < 2 ^ 24 → 1 ≤ rs.length →
    rs.length ≤ 8 → (∀ n ∈ rs, 1 ≤ n ∧ n ≤ 65535) →
    params = be 3 badge ++ be 1 plan.val ++ be 3 deposit ++ optProgBytes preset ++ receiverList rs →
    (s.session.valid = false → exec (.openHire .hire params) s = .next (s.answered .hire 0x30#8 .noClock [])) ∧
    (s.session.valid = true →
      (512 ≤ s.hires.records.length →
        exec (.openHire .hire params) s = .next (s.answered .hire 0x30#8 .tableFull [])) ∧
      (s.hires.records.length < 512 →
        (∀ h, s.badgeHire badge = some h →
          exec (.openHire .hire params) s = .next (s.answered .hire 0x30#8 .badgeActive (be 2 h.number))) ∧
        ((∀ h ∈ s.hires.records, h.badge ≠ badge) →
          (∀ p, preset = some p → (s.program p).config.configured = false →
            exec (.openHire .hire params) s = .next (s.answered .hire 0x30#8 .notConfigured [])) ∧
          ((∀ p, preset = some p → (s.program p).config.configured = true) →
            ∀ l1 n l2, rs = l1 ++ n :: l2 → l1.Nodup → (∀ m ∈ l1, ∃ r, s.receiver m = some r ∧ r.state = .ready) →
              (s.receiver n = none → exec (.openHire .hire params) s = .next
                (s.answered .hire 0x30#8 .unknown (be 2 n ++ be 1 (l1.length + 1)))) ∧
              ∀ r, s.receiver n = some r →
                (r.state ≠ .ready → exec (.openHire .hire params) s = .next
                  (s.answered .hire 0x30#8 .notReady (be 2 n ++ be 1 (l1.length + 1)))) ∧
                (r.state = .ready → n ∈ l1 → exec (.openHire .hire params) s = .next
                  (s.answered .hire 0x30#8 .duplicate (be 2 n ++ be 1 (l1.length + 1))))) ∧
          ((∀ p, preset = some p → (s.program p).config.configured = true) → rs.Nodup →
            (∀ n ∈ rs, ∃ r, s.receiver n = some r ∧ r.state = .ready) →
            1 ≤ s.hires.counter → s.hires.counter ≤ 9999 →
            ∃ number tries, number = nextHireNumber^[tries] s.hires.counter ∧ 1 ≤ number ∧ number ≤ 9999 ∧
              (∀ h ∈ s.hires.records, h.number ≠ number) ∧
              (∀ j < tries, ∃ h ∈ s.hires.records, h.number = nextHireNumber^[j] s.hires.counter) ∧
              ∀ l1 l2, s.hires.records = l1 ++ l2 → (∀ h ∈ l1, h.number < number) → (∀ h ∈ l2, number < h.number) →
                exec (.openHire .hire params) s = .next
                  (((rs.foldl (fun u n => u.issueReceiver n number)
                    (((s.answered .hire 0x30#8 (if deposit ≤ 1000000 then .ok else .okClamped)
                      (be 2 number ++ be 3 (min 1000000 deposit) ++ be 1 rs.length ++ be 4 s.session.clock.abs
                        ++ s.presetBytes preset)).setHireCounter (if number = 9999 then 1 else number + 1)).setHires
                      (l1 ++ ⟨number, .opened, badge, plan, min 1000000 deposit, preset, s.session.clock, false, false,
                        none, none, rs.map fun n => ⟨n, .out, preset.map fun p => (s.program p).outage, 0, none, none⟩,
                        none⟩ :: l2))).changeDemand preset (· + rs.length)).modifyCounters
                    fun c => { c with
                      hiresOpened := min 4294967295 (c.hiresOpened + 1)
                      issued := min 4294967295 (c.issued + rs.length) })))))

/-- What issues, returns and write-offs do. An issue makes the receiver ON_HIRE with the hire's number, counts it and clears
its mark; a return or recovery makes it UNRACKED with no hire and frees its slot; a write-off makes it LOST (R105). A
returned line records the hall time and the outage, and marks the hire when the clock is not valid (R118). A line written off
becomes LOST, the preset's demand falls by one and the counter of receivers written off rises by one (R122). -/
def Obligations.IssueReturnAndWriteOffChangeWhatTheirRulesSay : Prop :=
  (∀ (s : State) (n k : Nat), s.issueReceiver n k = (s.clearMark n).modifyReceiver n fun r =>
    { r with state := .onHire, hire := some k, issues := min 65535 (r.issues + 1) }) ∧
  (∀ (s : State) (n : Nat) (r : Receiver), s.receiver n = some r →
    (r.slot = none → s.unrackReceiver n = s.modifyReceiver n fun x => { x with state := .unracked, hire := none }) ∧
    (∀ k, r.slot = some k → s.unrackReceiver n = (s.setSlot k none).modifyReceiver n fun x =>
      { x with state := .unracked, hire := none, slot := none }) ∧
    ∀ h, (r.slot = none → s.loseReceiver n h = s.modifyReceiver n fun x => { x with state := .lost, hire := some h }) ∧
      (∀ k, r.slot = some k → s.loseReceiver n h = (s.setSlot k none).modifyReceiver n fun x =>
        { x with state := .lost, hire := some h, slot := none })) ∧
  (∀ (s : State) (h : Hire) (i n : Nat), s.returnLine h i n =
    ((((s.modifyHire h.number fun x => { x with
      lines := x.lines.modify i fun l => { l with
        state := .returned
        returnTime := some s.session.clock
        outageAtReturn := if l.base.isSome then h.preset.map fun p => (s.program p).outage else none }
      suspect := x.suspect || !s.session.valid }).unrackReceiver n).changeDemand h.preset (· - 1)).modifyCounters
        fun c => { c with returned := min 4294967295 (c.returned + 1) })) ∧
  ∀ (s : State) (h : Hire) (i n : Nat), s.writeOffLine h i n =
    ((((s.modifyHire h.number fun x => { x with
      lines := x.lines.modify i fun l => { l with state := .lost } }).loseReceiver n h.number).changeDemand h.preset
        (· - 1)).modifyCounters fun c => { c with writtenOff := min 4294967295 (c.writtenOff + 1) })

/-- ADD RECEIVER adds an OUT line to an OPEN hire with room and issues a READY receiver (R117); RETURN RECEIVER returns an
ON_HIRE receiver's OUT line and closes the hire when none is left, and recovers a LOST one (R118, R120, R126); WRITE OFF
loses an OUT line and closes the hire when none is left (R122); CHANGE PRESET moves the OUT lines and their demand to the
new preset (R123). Each with the refusals of its rule, WRONG_PORT and MALFORMED among them (R169). The answers' flags in one
byte, 1 or 0, the code of the way a closed hire went, the fields of a CHANGE PRESET that changes nothing, the return time
and a LOST receiver's hire number without a presence byte, and the preset and its radiation state as one optional field are
the MODEL's choices (log entries 10, 34, 39 and 40). -/
def Obligations.LinesAreAddedReturnedLostAndMoved : Prop :=
  (∀ (s : State) (p : Port) (params : List Byte), s.canTake p → p ≠ .hire → params.length ≤ 250 →
    exec (.addReceiver p params) s = .next (s.answered p 0x31#8 .wrongPort []) ∧
    exec (.returnReceiver p params) s = .next (s.answered p 0x32#8 .wrongPort []) ∧
    exec (.writeOff p params) s = .next (s.answered p 0x33#8 .wrongPort []) ∧
    exec (.changePreset p params) s = .next (s.answered p 0x34#8 .wrongPort [])) ∧
  (∀ (s : State) (k n : Nat) (preset : Option Prog) (v : Byte), s.canTake .hire → k < 2 ^ 16 → n < 2 ^ 16 →
    (k = 0 ∨ 9999 < k ∨ n = 0 →
      exec (.addReceiver .hire (be 2 k ++ be 2 n)) s = .next (s.answered .hire 0x31#8 .malformed []) ∧
      exec (.writeOff .hire (be 2 k ++ be 2 n)) s = .next (s.answered .hire 0x33#8 .malformed [])) ∧
    exec (.returnReceiver .hire (be 2 0)) s = .next (s.answered .hire 0x32#8 .malformed []) ∧
    (k = 0 ∨ 9999 < k → exec (.changePreset .hire (be 2 k ++ optProgBytes preset)) s = .next
      (s.answered .hire 0x34#8 .malformed [])) ∧
    (31 < v.toNat → exec (.changePreset .hire (be 2 k ++ [1#8, v])) s = .next
      (s.answered .hire 0x34#8 .malformed []))) ∧
  (∀ (s : State) (k n : Nat), s.canTake .hire → 1 ≤ k → k ≤ 9999 → 1 ≤ n → n ≤ 65535 →
    (s.hire k = none →
      exec (.addReceiver .hire (be 2 k ++ be 2 n)) s = .next (s.answered .hire 0x31#8 .unknown []) ∧
      exec (.writeOff .hire (be 2 k ++ be 2 n)) s = .next (s.answered .hire 0x33#8 .unknown [])) ∧
    ∀ h, s.hire k = some h →
      (h.state = .settling →
        exec (.addReceiver .hire (be 2 k ++ be 2 n)) s = .next (s.answered .hire 0x31#8 .notActive []) ∧
        exec (.writeOff .hire (be 2 k ++ be 2 n)) s = .next (s.answered .hire 0x33#8 .notActive [])) ∧
      (h.state = .opened →
        (8 ≤ h.lines.length →
          exec (.addReceiver .hire (be 2 k ++ be 2 n)) s = .next (s.answered .hire 0x31#8 .linesFull [])) ∧
        (h.lines.length < 8 →
          (s.receiver n = none →
            exec (.addReceiver .hire (be 2 k ++ be 2 n)) s = .next (s.answered .hire 0x31#8 .unknown [])) ∧
          ∀ r, s.receiver n = some r →
            (r.state ≠ .ready →
              exec (.addReceiver .hire (be 2 k ++ be 2 n)) s = .next (s.answered .hire 0x31#8 .notReady [])) ∧
            (r.state = .ready → exec (.addReceiver .hire (be 2 k ++ be 2 n)) s = .next
              (((((s.answered .hire 0x31#8 .ok (be 1 (h.lines.length + 1) ++ be 1 (h.lines.length + 1))).modifyHire k
                fun x => { x with lines := x.lines ++
                  [⟨n, .out, h.preset.map fun p => (s.program p).outage, 0, none, none⟩] }).issueReceiver n
                    k).changeDemand h.preset (· + 1)).modifyCounters
                      fun c => { c with issued := min 4294967295 (c.issued + 1) }))) ∧
        (h.lines.findIdx? (fun l => l.receiver == n && l.state == .out) = none →
          exec (.writeOff .hire (be 2 k ++ be 2 n)) s = .next (s.answered .hire 0x33#8 .notActive [])) ∧
        ∀ i, h.lines.findIdx? (fun l => l.receiver == n && l.state == .out) = some i →
          exec (.writeOff .hire (be 2 k ++ be 2 n)) s = .next
            (((s.answered .hire 0x33#8 .ok
              (be 1 (i + 1) ++ closeBytes ((s.writeOffLine h i n).closeIfDone k).2)).writeOffLine h i n).closeIfDone
                k).1)) ∧
  (∀ (s : State) (n : Nat), s.canTake .hire → 1 ≤ n → n ≤ 65535 →
    (s.receiver n = none → exec (.returnReceiver .hire (be 2 n)) s = .next (s.answered .hire 0x32#8 .unknown [])) ∧
    ∀ r, s.receiver n = some r →
      (∀ k h i, r.state = .onHire → r.hire = some k → s.hire k = some h →
        h.lines.findIdx? (fun l => l.receiver == n && l.state == .out) = some i →
        exec (.returnReceiver .hire (be 2 n)) s = .next
          (((s.answered .hire 0x32#8 .ok (be 2 k ++ be 1 (i + 1) ++ be 4 s.session.clock.abs
            ++ flagByte s.session.valid ++ closeBytes ((s.returnLine h i n).closeIfDone k).2)).returnLine h i
              n).closeIfDone k).1) ∧
      (r.state = .lost → exec (.returnReceiver .hire (be 2 n)) s = .next
        ((s.answered .hire 0x32#8 .recovered (be 2 (r.hire.getD 0))).unrackReceiver n)) ∧
      (r.state ≠ .onHire → r.state ≠ .lost →
        exec (.returnReceiver .hire (be 2 n)) s = .next (s.answered .hire 0x32#8 .notActive []))) ∧
  ∀ (s : State) (k : Nat) (preset : Option Prog), s.canTake .hire → 1 ≤ k → k ≤ 9999 →
    (s.hire k = none → exec (.changePreset .hire (be 2 k ++ optProgBytes preset)) s = .next
      (s.answered .hire 0x34#8 .unknown [])) ∧
    ∀ h, s.hire k = some h →
      (h.state = .settling → exec (.changePreset .hire (be 2 k ++ optProgBytes preset)) s = .next
        (s.answered .hire 0x34#8 .notActive [])) ∧
      (h.state = .opened →
        (∀ p, preset = some p → (s.program p).config.configured = false →
          exec (.changePreset .hire (be 2 k ++ optProgBytes preset)) s = .next
            (s.answered .hire 0x34#8 .notConfigured [])) ∧
        ((∀ p, preset = some p → (s.program p).config.configured = true) →
          (preset = h.preset → exec (.changePreset .hire (be 2 k ++ optProgBytes preset)) s = .next
            (s.answered .hire 0x34#8 .ok (be 1 0 ++ s.presetBytes preset))) ∧
          (preset ≠ h.preset → exec (.changePreset .hire (be 2 k ++ optProgBytes preset)) s = .next
            ((((s.answered .hire 0x34#8 .ok (be 1 h.outCount ++ s.presetBytes preset)).modifyHire k fun x => { x with
              preset := preset
              lines := x.lines.map fun l =>
                if l.state = .out then
                  { l with
                    carried := (match l.base, h.preset with
                      | some base, some p => l.carried + ((s.program p).outage - base)
                      | _, _ => l.carried)
                    base := preset.map fun p => (s.program p).outage }
                else l }).changeDemand h.preset (· - h.outCount)).changeDemand preset (· + h.outCount)))))

/-- Outside start-up every program's demand count is the number of OUT lines of OPEN hires that have it as preset, after
every step (R128, R129). And every step keeps the law between receivers and hire lines: a receiver's slot and hire number
fit its state, an ON_HIRE receiver names a hire that holds exactly one OUT line for it, and an OUT line's receiver is
ON_HIRE and names the line's hire (R93, R112). -/
def Obligations.DemandCountsTheOutLines : Prop :=
  (∀ s t : State, s.demandCounted → step s = .next t → t.demandCounted) ∧
  ∀ s t : State, s.demandCounted → s.linesAgree → step s = .next t → t.linesAgree

/-! ### Charges and settlement -/

/-- A hire with no line left OUT closes: with room in the queue its record leaves the table and its account joins the queue,
counted in the day, SETTLEMENT_WAITING queued when the queue was empty; with a full queue it waits as SETTLING in the next
closing position and SETTLEMENT_BACKLOG is raised; a hire with a line OUT stays (R126, R142, R144, R145, R148). TAKE
SETTLEMENT takes the oldest record and draws in the SETTLING hire at closing position 1, or answers EMPTY (R146); the
record's bytes are those of R179. -/
def Obligations.HiresCloseAndSettlementsAreTaken : Prop :=
  (∀ (s : State) (h : Hire), s.hire h.number = some h →
    (h.lines.any (fun l => l.state == .out) = true → s.closeIfDone h.number = (s, none)) ∧
    (h.lines.any (fun l => l.state == .out) = false → ∀ c a,
      c = { h with closedAt := some s.session.clock, suspect := h.suspect || !s.session.valid } →
      a = accountOf (s.settlement.tariffs.get h.plan) c →
      (s.settlement.queue.length < 64 → ∀ u,
        u = (((s.setHires (s.hires.records.filter fun x => x.number ≠ h.number)).setQueue (s.settlement.queue ++
          [⟨h.number, h.badge, h.plan, h.deposit, h.openedAt, s.session.clock, h.overdue, c.suspect, a⟩])).modifyCounters
            fun d => { d with
              hiresSettled := min 4294967295 (d.hiresSettled + 1)
              charges := min 4294967295 (d.charges + a.total)
              refunds := min 4294967295 (d.refunds + a.balance.toNat)
              due := min 4294967295 (d.due + (-a.balance).toNat) }) →
        (s.settlement.queue = [] →
          s.closeIfDone h.number = (u.notify .settlementWaiting h.number 1 0 0, some .queued)) ∧
        (s.settlement.queue ≠ [] → s.closeIfDone h.number = (u, some .queued))) ∧
      (64 ≤ s.settlement.queue.length → s.closeIfDone h.number =
        ((s.modifyHire h.number fun _ => { c with
          state := .settling
          closingPos := some ((s.hires.records.countP fun x => x.state = .settling) + 1)
          account := some a }).raiseFault .settlementBacklog h.number, some .settling)))) ∧
  ∀ s : State, s.canTake .hire →
    (s.settlement.queue = [] → exec (.takeSettlement .hire []) s = .next (s.answered .hire 0x3C#8 .empty (be 1 0))) ∧
    ∀ r rest record, s.settlement.queue = r :: rest →
      record = be 2 r.hire ++ be 3 r.badge ++ be 1 r.plan.val ++ be 3 r.deposit ++ be 4 r.openedAt.abs
        ++ be 4 r.closedAt.abs ++ be 1 ((if r.overdue then 1 else 0) + (if r.suspect then 2 else 0))
        ++ be 1 r.account.lines.length
        ++ r.account.lines.flatMap (fun l => be 2 l.receiver ++ be 1 (if l.outcome = .lost then 2 else 1)
          ++ be 3 l.minutes ++ be 3 l.gross ++ be 3 l.credited ++ be 3 l.charge)
        ++ be 4 r.account.total ++ be 4 (BitVec.ofInt 32 r.account.balance).toNat →
      ((∀ h ∈ s.hires.records, h.state = .settling → h.closingPos ≠ some 1) →
        exec (.takeSettlement .hire []) s = .next ((s.answered .hire 0x3C#8 .ok (record ++ be 1 rest.length
          ++ be 2 (s.hires.records.countP fun x => x.state = .settling) ++ be 1 0)).setQueue rest)) ∧
      ∀ h a time, h ∈ s.hires.records → h.state = .settling → h.closingPos = some 1 → h.account = some a →
        h.closedAt = some time → s.hires.records.Pairwise (fun x y => x.number < y.number) →
        (∀ g ∈ s.hires.records, g.state = .settling → g.closingPos = some 1 → g = h) →
        exec (.takeSettlement .hire []) s = .next
          ((((s.answered .hire 0x3C#8 .ok (record ++ be 1 (rest.length + 1)
            ++ be 2 ((s.hires.records.countP fun x => x.state = .settling) - 1) ++ be 1 1 ++ be 2 h.number)).setQueue
              (rest ++ [⟨h.number, h.badge, h.plan, h.deposit, h.openedAt, time, h.overdue, h.suspect, a⟩])).modifyCounters
                fun d => { d with
                  hiresSettled := min 4294967295 (d.hiresSettled + 1)
                  charges := min 4294967295 (d.charges + a.total)
                  refunds := min 4294967295 (d.refunds + a.balance.toNat)
                  due := min 4294967295 (d.due + (-a.balance).toNat) }).setHires
            ((s.hires.records.filter fun x => x.number ≠ h.number).map fun x =>
              if x.state = .settling then { x with closingPos := x.closingPos.map (· - 1) } else x))

/-- The account of a hire (R137 to R142). A returned line's time goes into units past the grace, its outage into credit of at
most those units, and its net units into money under the cap and the saturation; a lost line costs the lost charge; the
total is the sum and the balance the deposit less the total, both within the bounds of R141. -/
def Obligations.AccountsFollowTheChargeStages : Prop :=
  (∀ (t : Tariff) (opened : HallTime) (l : Line) (s m g o c raw capped : Nat),
    l.state = .returned →
    s = (match l.returnTime with | some r => r.abs - opened.abs | none => 0) →
    m = (s + 59) / 60 → g = (if m ≤ t.grace then 0 else (m + t.unitLength - 1) / t.unitLength) →
    o = (match l.base, l.outageAtReturn with
      | some b, some r => l.carried + (r - b)
      | _, _ => l.carried).toNat →
    c = min (o / (t.unitLength * 60)) g → raw = (g - c) * t.unitCharge →
    capped = (if t.dailyCap = 0 then raw else min raw (max 1 ((s + 86399) / 86400) * t.dailyCap)) →
    lineAccount t opened l = ⟨l.receiver, .returned, m, g, c, min capped 16777215⟩ ∧ c ≤ g ∧
      (m ≤ t.grace ∨ c = g ∨ t.unitCharge = 0 → min capped 16777215 = 0)) ∧
  (∀ (t : Tariff) (opened : HallTime) (l : Line), l.state = .lost →
    lineAccount t opened l = ⟨l.receiver, .lost, 0, 0, 0, t.lostCharge⟩) ∧
  ∀ (t : Tariff) (h : Hire), t.inRange → h.lines.length ≤ 8 → h.deposit ≤ 1000000 →
    (accountOf t h).lines = h.lines.map (lineAccount t h.openedAt) ∧
    (accountOf t h).total = ((accountOf t h).lines.map (·.charge)).sum ∧
    (accountOf t h).balance = (h.deposit : Int) - (accountOf t h).total ∧ (accountOf t h).total ≤ 134217720 ∧
    -134217720 ≤ (accountOf t h).balance ∧ (accountOf t h).balance ≤ 1000000

/-! ### Session, clock and day -/

/-- The four session commands, each LOCKED outside its state and OPEN SESSION HELD under a plan hold; each taken sets the
state and queues SESSION_CHANGED with the old and the new state, and on the other ports each is refused WRONG_PORT (R152).
Those that leave LIVE first drop every request,
make every LIVE desk READY, take every program's live desk with cause SESSION, queue a CUT for each desk and then a
HANDOVER_LAPSED with cause SESSION for each request, each in ascending order of booth, and run the derivation pass, whose
notices come before SESSION_CHANGED (R16, R21, R33, R34, R153). -/
def Obligations.SessionCommandsChangeTheState : Prop :=
  (∀ (s : State) (p : Port) (params : List Byte), s.canTake p → p ≠ .operator → params.length ≤ 250 →
    exec (.openSession p params) s = .next (s.answered p 0x50#8 .wrongPort []) ∧
    exec (.recess p params) s = .next (s.answered p 0x51#8 .wrongPort []) ∧
    exec (.resume p params) s = .next (s.answered p 0x52#8 .wrongPort []) ∧
    exec (.endSession p params) s = .next (s.answered p 0x53#8 .wrongPort [])) ∧
  (∀ s : State, s.canTake .operator →
    (s.session.state ≠ .setup →
      exec (.openSession .operator []) s = .next (s.answered .operator 0x50#8 .locked [])) ∧
    (s.session.state = .setup → s.planner.hold ≠ none →
      exec (.openSession .operator []) s = .next (s.answered .operator 0x50#8 .held [])) ∧
    (s.session.state = .setup → s.planner.hold = none → exec (.openSession .operator []) s = .next
      (((s.answered .operator 0x50#8 .ok [1#8, 2#8]).setSession .live).notify .sessionChanged 1 2 0 0)) ∧
    (s.session.state ≠ .live → exec (.recess .operator []) s = .next (s.answered .operator 0x51#8 .locked [])) ∧
    (s.session.state = .live → exec (.recess .operator []) s = .next
      (((s.answered .operator 0x51#8 .ok [2#8, 3#8]).leaveLive.setSession .recess).notify .sessionChanged 2 3 0 0)) ∧
    (s.session.state ≠ .recess → exec (.resume .operator []) s = .next (s.answered .operator 0x52#8 .locked [])) ∧
    (s.session.state = .recess → exec (.resume .operator []) s = .next
      (((s.answered .operator 0x52#8 .ok [3#8, 2#8]).setSession .live).notify .sessionChanged 3 2 0 0)) ∧
    (s.session.state = .setup → exec (.endSession .operator []) s = .next (s.answered .operator 0x53#8 .locked [])) ∧
    (s.session.state = .live → exec (.endSession .operator []) s = .next
      (((s.answered .operator 0x53#8 .ok [2#8, 1#8]).leaveLive.setSession .setup).notify .sessionChanged 2 1 0 0)) ∧
    (s.session.state = .recess → exec (.endSession .operator []) s = .next
      (((s.answered .operator 0x53#8 .ok [3#8, 1#8]).setSession .setup).notify .sessionChanged 3 1 0 0))) ∧
  ∀ s t : State, s.airConsistent → t = s.leaveLive →
    (∃ u : State, (∀ b, u.request b = none) ∧
      (∀ d, u.desk d = { s.desk d with
        state := match (s.desk d).state with | .live id _ => .ready id | x => x }) ∧
      (∀ p, u.program p = { s.program p with
        liveDesk := none
        lastCause := if (s.program p).liveDesk = none then (s.program p).lastCause else .session }) ∧
      u = { s with
        booth := { s.booth with desks := u.booth.desks, requests := u.booth.requests }
        programs := u.programs } ∧
      t = ((List.finRange 24).foldl (fun v b =>
          match s.request b with
          | some r => v.notify .handoverLapsed (b.val + 1) (r.requester.val + 1) (r.liveDesk.val + 1) 5
          | none => v)
        ((List.finRange 72).foldl (fun v i =>
          match s.deskProgram (deskAt i) with
          | some p => v.notify .cut ((deskAt i).booth.val + 1) ((deskAt i).pos.val + 1) p.val 6
          | none => v) u)).derivationPass) ∧
    (∀ b, t.request b = none) ∧
    (∀ d, (t.desk d).state = (match (s.desk d).state with | .live id _ => .ready id | x => x) ∧
      (t.desk d).selected = (s.desk d).selected ∧ (t.desk d).turnSeconds = (s.desk d).turnSeconds ∧
      (t.desk d).turnDue = (s.desk d).turnDue) ∧
    (∀ p, (t.program p).liveDesk = none ∧ (t.program p).lastCause =
      if (s.program p).liveDesk = none then (s.program p).lastCause else .session) ∧
    t = { s with
      booth := { s.booth with desks := t.booth.desks, requests := t.booth.requests }
      programs := t.programs
      link := t.link
      ports := t.ports
      faults := t.faults }

/-- SET CLOCK loads the clock, held to day 9999 and second 86399, makes it valid and restarts the tick watch, and raises
CLOCK_STEP_BACK with the OPEN hire of the latest opened time when the loaded value is earlier (R156, R157). DAY CLOSE,
LOCKED in LIVE, builds the day summary, sets each day outage base, moves the interpreters' counts to the previous day and
drops the entries left with nothing, and moves to the next accounting day (R161, R162). That SET CLOCK's answer sends the
validity and the step back as one byte each, 1 or 0, is the MODEL's choice (log entry 10). -/
def Obligations.ClockIsLoadedAndDayIsClosed : Prop :=
  (∀ (s u : State) (day second : Nat) (loaded : HallTime) (back : Bool), s.canTake .operator → day < 2 ^ 16 →
    second < 2 ^ 24 → loaded = ⟨min 9999 day, min 86399 second⟩ →
    u = { s.answered .operator 0x5C#8 (if day ≤ 9999 ∧ second ≤ 86399 then .ok else .okClamped)
        (be 2 loaded.day ++ be 3 loaded.second ++ be 4 s.session.clock.abs ++ flagByte s.session.valid
          ++ flagByte back) with
      session := { s.session with clock := loaded, valid := true, tickSince := s.now, tickLost := false }
      retention := (s.rewrite 8).retention } →
    ((∀ h ∈ s.hires.records, h.state = .opened → h.openedAt.abs ≤ loaded.abs) → back = false →
      exec (.setClock .operator (be 2 day ++ be 3 second)) s = .next u) ∧
    ∀ h ∈ s.hires.records, h.state = .opened → loaded.abs < h.openedAt.abs →
      (∀ g ∈ s.hires.records, g.state = .opened → g.openedAt.abs < h.openedAt.abs ∨
        (g.openedAt.abs = h.openedAt.abs ∧ h.number ≤ g.number)) → back = true →
      exec (.setClock .operator (be 2 day ++ be 3 second)) s = .next (u.raiseFault .clockStepBack h.number)) ∧
  ∀ s : State, s.canTake .operator →
    (s.session.state = .live → exec (.dayClose .operator []) s = .next (s.answered .operator 0x5D#8 .locked [])) ∧
    (s.session.state ≠ .live → ∀ kept : List Interpreter, ∀ next : Nat,
      next = (if 9999 ≤ s.session.dayNumber then 1 else s.session.dayNumber + 1) →
      kept = (s.booth.interpreters.filter fun e => e.desk ≠ none ∨ e.onAir ≠ 0 ∨ e.turns ≠ 0).map (fun e =>
        { e with prevOnAir := e.onAir, prevTurns := e.turns, onAir := 0, turns := 0 }) →
      ∃ outages : Table (BitVec 32) 32, ∃ programs : Table Program 32,
        (∀ p, outages.get p = (s.program p).outage - (s.program p).outageBase) ∧
        (∀ p, programs.get p = { s.program p with outageBase := (s.program p).outage }) ∧
        exec (.dayClose .operator []) s = .next
          { s.answered .operator 0x5D#8 .ok (be 2 s.session.dayNumber ++ be 2 next
              ++ be 1 (s.booth.interpreters.length - kept.length)) with
            programs := programs
            booth := { s.booth with interpreters := kept }
            session := { s.session with
              dayNumber := next
              counters := ⟨0, 0, 0, 0, 0, 0, 0, 0⟩
              summary := some ⟨s.session.dayNumber, s.session.clock, s.session.valid, s.session.counters, outages,
                s.booth.interpreters.length⟩ }
            retention := (((s.rewrite 4).rewrite 7).rewrite 9).retention })

/-- A tick advances the clock, which holds at its end, and restarts the tick watch (R154, R158); with start-up over it counts,
in a LIVE session, the air time of each LIVE desk and its interpreter and one outage second of each SHED program (R19,
R79), sets the turn-due flag of a desk that reaches its booth's limit and queues TURN_DUE, in ascending order of booth
(R20), and sets the overdue flag of each OPEN hire that reaches its plan's limit and queues HIRE_OVERDUE, in ascending order
of hire number (R130); through an external reset the clock and the watch alone take it, and during a
start-up check or without main power nothing does (R155). The tick watch's expiry at 3000 ms loses the tick, clears the
clock's validity and raises TICK_LOST with the day (R1, R158). That a tick's TURN_DUE notices, and the NOTICE_OVERFLOW that one
may raise, come before its HIRE_OVERDUE notices, that the expiry changes nothing before 3000 ms, as an event that cannot
arise, and that no tick is taken and no watch runs while RESET_N is asserted over a power-on start-up, are the MODEL's
choices (log entries 17, 14 and 43). -/
def Obligations.TicksCountAndTheirLossIsRaised : Prop :=
  (∀ s : State, s.powered = false ∨ s.startup = .checking → exec .tick s = .next s) ∧
  (∀ (s u : State) (clock : HallTime), s.powered = true →
    clock = (if s.session.clock.second < 86399 then ⟨s.session.clock.day, s.session.clock.second + 1⟩
      else if s.session.clock.day < 9999 then ⟨s.session.clock.day + 1, 0⟩ else s.session.clock) →
    u = { s with
      session := { s.session with clock := clock, tickSince := s.now, tickLost := false }
      retention := (s.rewrite 8).retention } →
    (s.startup = .external → exec .tick s = .next u) ∧
    (s.startup = .done → s.hires.records.Pairwise (fun a b => a.number < b.number) →
      ∃ t, exec .tick s = .next t ∧
        (∀ p, t.program p = { s.program p with outage :=
          if s.session.state = .live ∧ (s.program p).radiation = .shed then (s.program p).outage + 1
          else (s.program p).outage }) ∧
        (∀ d, t.desk d = { s.desk d with
          turnSeconds := if s.session.state = .live ∧ (s.desk d).state.isLive = true
            then min 65535 ((s.desk d).turnSeconds + 1) else (s.desk d).turnSeconds
          turnDue := (s.desk d).turnDue || decide (s.session.state = .live ∧ (s.desk d).state.isLive = true ∧
            (s.boothConfig d.booth).turnLimit * 60 ≤ min 65535 ((s.desk d).turnSeconds + 1)) }) ∧
        t.booth.interpreters = s.booth.interpreters.map (fun e =>
          if s.session.state = .live ∧ s.onAirNow e.id = true then { e with onAir := min 16777215 (e.onAir + 1) }
          else e) ∧
        t.hires.records = s.hires.records.map (fun h =>
          if h.state = .opened ∧ h.openedAt.abs + (s.settlement.tariffs.get h.plan).hireLimit * 3600 ≤ clock.abs
          then { h with overdue := true } else h) ∧
        t.retention.marker = s.retention.marker ∧ (s.wordsAgree → t.wordsAgree) ∧
        t = s.hires.records.foldl (fun v h =>
            if h.state = .opened ∧ h.overdue = false ∧
              h.openedAt.abs + (s.settlement.tariffs.get h.plan).hireLimit * 3600 ≤ clock.abs
            then v.notify .hireOverdue h.number h.plan.val (s.settlement.tariffs.get h.plan).hireLimit
              (h.lines.countP fun l => l.state = .out) else v)
          ((List.finRange 72).foldl (fun v i =>
            match (s.desk (deskAt i)).state with
            | .live id _ =>
              if s.session.state = .live ∧ (s.desk (deskAt i)).turnDue = false ∧
                (s.boothConfig (deskAt i).booth).turnLimit * 60 ≤ min 65535 ((s.desk (deskAt i)).turnSeconds + 1)
              then v.notify .turnDue ((deskAt i).booth.val + 1) ((deskAt i).pos.val + 1) id
                (min 65535 ((s.desk (deskAt i)).turnSeconds + 1) / 60) else v
            | _ => v)
          { u with
            booth := { s.booth with desks := t.booth.desks, interpreters := t.booth.interpreters }
            programs := t.programs
            hires := { s.hires with records := t.hires.records }
            retention := t.retention }))) ∧
  ∀ s : State, s.powered = true →
    (s.startup ≠ .checking → s.session.tickLost = false → s.session.tickSince + 3000 ≤ s.now →
      exec .tickWatchExpiry s = .next
      (({ s with
        session := { s.session with tickLost := true, valid := false }
        retention := (s.rewrite 8).retention } : State).raiseFault .tickLost s.session.clock.day)) ∧
    (s.startup = .checking ∨ s.session.tickLost = true ∨ s.now < s.session.tickSince + 3000 →
      exec .tickWatchExpiry s = .next s)

/-! ### Power, reset and retained state -/

/-- Power-on and the assertion of RESET_N give every volatile item its reset value and keep the retained domain but for the
interpreters' current desks; the assertion counts a restart unless it cuts a power-on start-up short (R186, R188, R189). The
start-up check makes a cold start when the marker or a check word fails, with RETENTION_LOST for the lowest failed group,
and otherwise counts a power-on; it and the release of RESET_N end with demand recomputed, the marker set, the link IDLE and
STARTING clear, raise the held faults in their order and then queue STARTED (R159, R185 to R188). A start-up cut short
leaves what R189 says, for every value of the free value that says how far it had come. These are the MODEL's choices: the
words as agreement flags and VBAK_FAILURE clearing the marker alone (log entry 8), volatile values kept without main power
(9), events that cannot arise (14), what a cut leaves (23, 30), the count at which the check began (44), RESET_N at the edges of power and the bank read (25), and
POWER_ON in any state (27). -/
def Obligations.PowerAndResetKeepOrReplaceTheRetainedDomain : Prop :=
  (∀ s : State, s.powered = false ∨ s.resetAsserted = true ∨ s.startup ≠ .checking →
    exec .mainPowerLoss s = .next { s with powered := false, faults := { s.faults with held := [] } }) ∧
  (∀ s u : State, s.powered = true → s.resetAsserted = false → s.startup = .checking →
    u = { s with powered := false, faults := { s.faults with held := [] }, startUpsCut := s.startUpsCut + 1 } →
    ∃ t, exec .mainPowerLoss s = .next t ∧ (t = u ∨
      (s.retention.failedGroup = none ∧ t = { u with
        session := { s.session with
          restartCount := s.session.restartCount + 1
          restartCause := .powerOn
          valid := false }
        retention := (s.rewrite 8).retention }) ∨
      (s.retention.failedGroup ≠ none ∧ t.atDefaults ∧ t.wordsAgree ∧ t.retention.marker = false ∧
        t.booth.desks = s.booth.desks ∧ t.session.state = s.session.state ∧ t.powered = false ∧ t.ports = s.ports ∧
        t.link = s.link ∧ t.faults = u.faults ∧ t.startUpsCut = u.startUpsCut ∧ t.startup = s.startup))) ∧
  (∀ s : State, (s.powered = false →
      exec .vbakFailure s = .next { s with retention := { s.retention with marker := false } }) ∧
    (s.powered = true → exec .vbakFailure s = .next s)) ∧
  (∀ s : State, ∃ t, exec .powerOn s = .next t ∧ s.volatileResetOf t ∧ t.now = 0 ∧ t.powered = true ∧
    t.startup = .checking ∧ t.checkSince = 0 ∧ t.retention = s.retention ∧ t.resetAsserted = s.resetAsserted ∧
    t.session = { s.session with state := .setup, tickSince := 0, tickLost := false }) ∧
  (∀ s : State, s.powered = true → s.resetAsserted = false → ∃ t, exec .externalReset s = .next t ∧ t.now = s.now ∧
    t.powered = true ∧ t.resetAsserted = true ∧
    (s.startup ≠ .checking → s.volatileResetOf t ∧ t.startup = .external ∧ t.retention = (s.rewrite 8).retention ∧
      t.session = { s.session with
        state := .setup, restartCount := s.session.restartCount + 1, restartCause := .external }) ∧
    (s.startup = .checking → t.startup = .checking ∧ t.startUpsCut = s.startUpsCut + 1 ∧
      ((s.volatileResetOf t ∧ t.session = { s.session with state := .setup } ∧ t.retention = s.retention) ∨
        (s.retention.failedGroup ≠ none ∧ t.atDefaults ∧ t.wordsAgree ∧ t.retention.marker = false ∧
          ∃ u : State, u.atDefaults ∧ u.planner.lines = s.planner.lines ∧ u.link = s.link ∧
            u.ports.wire = s.ports.wire ∧ u.volatileResetOf t)))) ∧
  (∀ s : State, (s.resetAsserted = true → exec .externalReset s = .next s) ∧
    (s.powered = false → exec .externalReset s = .next { s with resetAsserted := true })) ∧
  (∀ s : State, (s.retention.failedGroup = none ↔ s.retention.marker = true ∧ ∀ g, s.retention.intact.get g = true) ∧
    ∀ g : Nat, s.retention.failedGroup = some g ↔ (g = 0 ∧ s.retention.marker = false) ∨
      (s.retention.marker = true ∧ ∃ k : Fin 10, g = k.val + 1 ∧ s.retention.intact.get k = false ∧
        ∀ j < k, s.retention.intact.get j = true)) ∧
  (∀ s : State, s.powered = false ∨ s.resetAsserted = true ∨ s.startup ≠ .checking →
    exec .startupCheckComplete s = .next s) ∧
  (∀ s : State, s.powered = true → s.resetAsserted = false → s.startup = .checking →
    ∃ (t w : State) (held : List (FaultKind × Nat)), exec .startupCheckComplete s = .next t ∧
      s.faults.held <+: held ∧ w.faults = { s.faults with held := [] } ∧ w.startup = .done ∧
      t.startup = .done ∧ t.retention.marker = true ∧
      t.link.phase = .idle ∧ t.faults.held = [] ∧ t.session.tickSince = s.now ∧ t.session.tickLost = false ∧
      t.session.valid = false ∧ (∀ p, (t.program p).demand = t.demandOf p) ∧ t.planner.bank = s.planner.bank ∧
      (s.retention.failedGroup = none →
        t.hires = s.hires ∧ t.settlement = s.settlement ∧ t.registry = s.registry ∧
        t.booth.configs = s.booth.configs ∧ t.booth.interpreters = s.booth.interpreters ∧
        t.planner.budgets = s.planner.budgets ∧
        (∀ p, (t.program p).config = (s.program p).config ∧ (t.program p).outage = (s.program p).outage ∧
          (t.program p).outageBase = (s.program p).outageBase) ∧
        t.session = { s.session with
          restartCount := s.session.restartCount + 1
          restartCause := .powerOn
          valid := false
          tickSince := s.now
          tickLost := false } ∧
        t = (held.foldl (fun v f => v.raiseFault f.1 f.2) w).notify .started 1
          (s.session.restartCount + 1).toNat 0 0) ∧
      (∀ g, s.retention.failedGroup = some g → t.atDefaults ∧ t.wordsAgree ∧ t.session = { s.session with
          clock := ⟨0, 0⟩
          valid := false
          restartCount := 1
          restartCause := .coldStart
          dayNumber := 1
          counters := ⟨0, 0, 0, 0, 0, 0, 0, 0⟩
          summary := none
          tickSince := s.now
          tickLost := false } ∧
        t = ((held.foldl (fun v f => v.raiseFault f.1 f.2) w).raiseFault .retentionLost g).notify .started 3 1 0 0 ∧
        t.faults.severeSeen = true ∧ (s.faults.severeSeen = false → (∀ f ∈ s.faults.held, f.1.severe = false) →
          t.faults.record = some ⟨.retentionLost, g, ⟨0, 0⟩⟩))) ∧
  ∀ s : State, (s.resetAsserted = false → exec .resetRelease s = .next s) ∧
    (s.resetAsserted = true → s.powered = false → exec .resetRelease s = .next { s with resetAsserted := false }) ∧
    (s.resetAsserted = true → s.powered = true → s.startup = .checking → exec .resetRelease s = .next { s with
      resetAsserted := false
      checkSince := s.now
      planner := { s.planner with bank := s.planner.lines, candidate := none } }) ∧
    (s.resetAsserted = true → s.powered = true → s.startup ≠ .checking →
      ∃ (t w : State) (held : List (FaultKind × Nat)), exec .resetRelease s = .next t ∧
        w.startup = .done ∧
        (s.startup = .external → s.faults.held <+: held ∧ w.faults = { s.faults with held := [] }) ∧
        t = (held.foldl (fun v f => v.raiseFault f.1 f.2) w).notify .started
          (match s.session.restartCause with | .powerOn => 1 | .external => 2 | .coldStart => 3)
          s.session.restartCount.toNat 0 0 ∧
        t.resetAsserted = false ∧ t.startup = .done ∧
        t.retention = { s.retention with marker := true } ∧ t.link.phase = .idle ∧ t.faults.held = [] ∧
        t.planner.bank = s.planner.lines ∧ t.planner.candidate = none ∧ (∀ p, (t.program p).demand = s.demandOf p) ∧
        t.hires = s.hires ∧ t.settlement = s.settlement ∧ t.registry = s.registry ∧ t.session = s.session)

end
end

