-- ==== Sys2Proof/Laws/State.lean ====
section
/-! SUPPORT. One lemma per field per update of State: what each named write leaves in every block. Each is true by
unfolding the write once, so that no later proof unfolds a record update. -/

namespace Sys2Proof.Machine

variable (s : State)

/-! ### State.rewrite -/

@[simp] theorem State.rewrite_now (g : Fin 10) : (s.rewrite g).now = s.now := rfl
@[simp] theorem State.rewrite_powered (g : Fin 10) : (s.rewrite g).powered = s.powered := rfl
@[simp] theorem State.rewrite_resetAsserted (g : Fin 10) : (s.rewrite g).resetAsserted = s.resetAsserted := rfl
@[simp] theorem State.rewrite_startup (g : Fin 10) : (s.rewrite g).startup = s.startup := rfl
@[simp] theorem State.rewrite_booth (g : Fin 10) : (s.rewrite g).booth = s.booth := rfl
@[simp] theorem State.rewrite_programs (g : Fin 10) : (s.rewrite g).programs = s.programs := rfl
@[simp] theorem State.rewrite_planner (g : Fin 10) : (s.rewrite g).planner = s.planner := rfl
@[simp] theorem State.rewrite_link (g : Fin 10) : (s.rewrite g).link = s.link := rfl
@[simp] theorem State.rewrite_registry (g : Fin 10) : (s.rewrite g).registry = s.registry := rfl
@[simp] theorem State.rewrite_hires (g : Fin 10) : (s.rewrite g).hires = s.hires := rfl
@[simp] theorem State.rewrite_settlement (g : Fin 10) : (s.rewrite g).settlement = s.settlement := rfl
@[simp] theorem State.rewrite_session (g : Fin 10) : (s.rewrite g).session = s.session := rfl
@[simp] theorem State.rewrite_ports (g : Fin 10) : (s.rewrite g).ports = s.ports := rfl
@[simp] theorem State.rewrite_faults (g : Fin 10) : (s.rewrite g).faults = s.faults := rfl
@[simp] theorem State.rewrite_retention (g : Fin 10) :
    (s.rewrite g).retention = { s.retention with intact := s.retention.intact.set g true } := rfl
@[simp] theorem State.rewrite_pending (g : Fin 10) : (s.rewrite g).pending = s.pending := rfl
@[simp] theorem State.rewrite_startUpsCut (g : Fin 10) : (s.rewrite g).startUpsCut = s.startUpsCut := rfl
@[simp] theorem State.rewrite_checkSince (g : Fin 10) : (s.rewrite g).checkSince = s.checkSince := rfl

/-! ### State.modifyDesk -/

@[simp] theorem State.modifyDesk_now (d : DeskId) (f : Desk → Desk) : (s.modifyDesk d f).now = s.now := rfl
@[simp] theorem State.modifyDesk_powered (d : DeskId) (f : Desk → Desk) :
    (s.modifyDesk d f).powered = s.powered := rfl
@[simp] theorem State.modifyDesk_resetAsserted (d : DeskId) (f : Desk → Desk) :
    (s.modifyDesk d f).resetAsserted = s.resetAsserted := rfl
@[simp] theorem State.modifyDesk_startup (d : DeskId) (f : Desk → Desk) :
    (s.modifyDesk d f).startup = s.startup := rfl
@[simp] theorem State.modifyDesk_booth (d : DeskId) (f : Desk → Desk) :
    (s.modifyDesk d f).booth = { s.booth with desks := s.booth.desks.modify d.idx f } := rfl
@[simp] theorem State.modifyDesk_programs (d : DeskId) (f : Desk → Desk) :
    (s.modifyDesk d f).programs = s.programs := rfl
@[simp] theorem State.modifyDesk_planner (d : DeskId) (f : Desk → Desk) :
    (s.modifyDesk d f).planner = s.planner := rfl
@[simp] theorem State.modifyDesk_link (d : DeskId) (f : Desk → Desk) : (s.modifyDesk d f).link = s.link := rfl
@[simp] theorem State.modifyDesk_registry (d : DeskId) (f : Desk → Desk) :
    (s.modifyDesk d f).registry = s.registry := rfl
@[simp] theorem State.modifyDesk_hires (d : DeskId) (f : Desk → Desk) : (s.modifyDesk d f).hires = s.hires := rfl
@[simp] theorem State.modifyDesk_settlement (d : DeskId) (f : Desk → Desk) :
    (s.modifyDesk d f).settlement = s.settlement := rfl
@[simp] theorem State.modifyDesk_session (d : DeskId) (f : Desk → Desk) :
    (s.modifyDesk d f).session = s.session := rfl
@[simp] theorem State.modifyDesk_ports (d : DeskId) (f : Desk → Desk) : (s.modifyDesk d f).ports = s.ports := rfl
@[simp] theorem State.modifyDesk_faults (d : DeskId) (f : Desk → Desk) : (s.modifyDesk d f).faults = s.faults := rfl
@[simp] theorem State.modifyDesk_retention (d : DeskId) (f : Desk → Desk) :
    (s.modifyDesk d f).retention = s.retention := rfl
@[simp] theorem State.modifyDesk_pending (d : DeskId) (f : Desk → Desk) :
    (s.modifyDesk d f).pending = s.pending := rfl
@[simp] theorem State.modifyDesk_startUpsCut (d : DeskId) (f : Desk → Desk) :
    (s.modifyDesk d f).startUpsCut = s.startUpsCut := rfl
@[simp] theorem State.modifyDesk_checkSince (d : DeskId) (f : Desk → Desk) :
    (s.modifyDesk d f).checkSince = s.checkSince := rfl

/-! ### State.setBoothConfig -/

@[simp] theorem State.setBoothConfig_now (b : Fin 24) (c : BoothConfig) : (s.setBoothConfig b c).now = s.now := rfl
@[simp] theorem State.setBoothConfig_powered (b : Fin 24) (c : BoothConfig) :
    (s.setBoothConfig b c).powered = s.powered := rfl
@[simp] theorem State.setBoothConfig_resetAsserted (b : Fin 24) (c : BoothConfig) :
    (s.setBoothConfig b c).resetAsserted = s.resetAsserted := rfl
@[simp] theorem State.setBoothConfig_startup (b : Fin 24) (c : BoothConfig) :
    (s.setBoothConfig b c).startup = s.startup := rfl
@[simp] theorem State.setBoothConfig_booth (b : Fin 24) (c : BoothConfig) :
    (s.setBoothConfig b c).booth = { s.booth with configs := s.booth.configs.set b c } := rfl
@[simp] theorem State.setBoothConfig_programs (b : Fin 24) (c : BoothConfig) :
    (s.setBoothConfig b c).programs = s.programs := rfl
@[simp] theorem State.setBoothConfig_planner (b : Fin 24) (c : BoothConfig) :
    (s.setBoothConfig b c).planner = s.planner := rfl
@[simp] theorem State.setBoothConfig_link (b : Fin 24) (c : BoothConfig) : (s.setBoothConfig b c).link = s.link := rfl
@[simp] theorem State.setBoothConfig_registry (b : Fin 24) (c : BoothConfig) :
    (s.setBoothConfig b c).registry = s.registry := rfl
@[simp] theorem State.setBoothConfig_hires (b : Fin 24) (c : BoothConfig) :
    (s.setBoothConfig b c).hires = s.hires := rfl
@[simp] theorem State.setBoothConfig_settlement (b : Fin 24) (c : BoothConfig) :
    (s.setBoothConfig b c).settlement = s.settlement := rfl
@[simp] theorem State.setBoothConfig_session (b : Fin 24) (c : BoothConfig) :
    (s.setBoothConfig b c).session = s.session := rfl
@[simp] theorem State.setBoothConfig_ports (b : Fin 24) (c : BoothConfig) :
    (s.setBoothConfig b c).ports = s.ports := rfl
@[simp] theorem State.setBoothConfig_faults (b : Fin 24) (c : BoothConfig) :
    (s.setBoothConfig b c).faults = s.faults := rfl
@[simp] theorem State.setBoothConfig_retention (b : Fin 24) (c : BoothConfig) :
    (s.setBoothConfig b c).retention = { s.retention with intact := s.retention.intact.set 5 true } := rfl
@[simp] theorem State.setBoothConfig_pending (b : Fin 24) (c : BoothConfig) :
    (s.setBoothConfig b c).pending = s.pending := rfl
@[simp] theorem State.setBoothConfig_startUpsCut (b : Fin 24) (c : BoothConfig) :
    (s.setBoothConfig b c).startUpsCut = s.startUpsCut := rfl
@[simp] theorem State.setBoothConfig_checkSince (b : Fin 24) (c : BoothConfig) :
    (s.setBoothConfig b c).checkSince = s.checkSince := rfl

/-! ### State.setRequest -/

@[simp] theorem State.setRequest_now (b : Fin 24) (r : Option HandoverRequest) : (s.setRequest b r).now = s.now := rfl
@[simp] theorem State.setRequest_powered (b : Fin 24) (r : Option HandoverRequest) :
    (s.setRequest b r).powered = s.powered := rfl
@[simp] theorem State.setRequest_resetAsserted (b : Fin 24) (r : Option HandoverRequest) :
    (s.setRequest b r).resetAsserted = s.resetAsserted := rfl
@[simp] theorem State.setRequest_startup (b : Fin 24) (r : Option HandoverRequest) :
    (s.setRequest b r).startup = s.startup := rfl
@[simp] theorem State.setRequest_booth (b : Fin 24) (r : Option HandoverRequest) :
    (s.setRequest b r).booth = { s.booth with requests := s.booth.requests.set b r } := rfl
@[simp] theorem State.setRequest_programs (b : Fin 24) (r : Option HandoverRequest) :
    (s.setRequest b r).programs = s.programs := rfl
@[simp] theorem State.setRequest_planner (b : Fin 24) (r : Option HandoverRequest) :
    (s.setRequest b r).planner = s.planner := rfl
@[simp] theorem State.setRequest_link (b : Fin 24) (r : Option HandoverRequest) :
    (s.setRequest b r).link = s.link := rfl
@[simp] theorem State.setRequest_registry (b : Fin 24) (r : Option HandoverRequest) :
    (s.setRequest b r).registry = s.registry := rfl
@[simp] theorem State.setRequest_hires (b : Fin 24) (r : Option HandoverRequest) :
    (s.setRequest b r).hires = s.hires := rfl
@[simp] theorem State.setRequest_settlement (b : Fin 24) (r : Option HandoverRequest) :
    (s.setRequest b r).settlement = s.settlement := rfl
@[simp] theorem State.setRequest_session (b : Fin 24) (r : Option HandoverRequest) :
    (s.setRequest b r).session = s.session := rfl
@[simp] theorem State.setRequest_ports (b : Fin 24) (r : Option HandoverRequest) :
    (s.setRequest b r).ports = s.ports := rfl
@[simp] theorem State.setRequest_faults (b : Fin 24) (r : Option HandoverRequest) :
    (s.setRequest b r).faults = s.faults := rfl
@[simp] theorem State.setRequest_retention (b : Fin 24) (r : Option HandoverRequest) :
    (s.setRequest b r).retention = s.retention := rfl
@[simp] theorem State.setRequest_pending (b : Fin 24) (r : Option HandoverRequest) :
    (s.setRequest b r).pending = s.pending := rfl
@[simp] theorem State.setRequest_startUpsCut (b : Fin 24) (r : Option HandoverRequest) :
    (s.setRequest b r).startUpsCut = s.startUpsCut := rfl
@[simp] theorem State.setRequest_checkSince (b : Fin 24) (r : Option HandoverRequest) :
    (s.setRequest b r).checkSince = s.checkSince := rfl

/-! ### State.setInterpreters -/

@[simp] theorem State.setInterpreters_now (l : List Interpreter) : (s.setInterpreters l).now = s.now := rfl
@[simp] theorem State.setInterpreters_powered (l : List Interpreter) :
    (s.setInterpreters l).powered = s.powered := rfl
@[simp] theorem State.setInterpreters_resetAsserted (l : List Interpreter) :
    (s.setInterpreters l).resetAsserted = s.resetAsserted := rfl
@[simp] theorem State.setInterpreters_startup (l : List Interpreter) :
    (s.setInterpreters l).startup = s.startup := rfl
@[simp] theorem State.setInterpreters_booth (l : List Interpreter) :
    (s.setInterpreters l).booth = { s.booth with interpreters := l } := rfl
@[simp] theorem State.setInterpreters_programs (l : List Interpreter) :
    (s.setInterpreters l).programs = s.programs := rfl
@[simp] theorem State.setInterpreters_planner (l : List Interpreter) :
    (s.setInterpreters l).planner = s.planner := rfl
@[simp] theorem State.setInterpreters_link (l : List Interpreter) : (s.setInterpreters l).link = s.link := rfl
@[simp] theorem State.setInterpreters_registry (l : List Interpreter) :
    (s.setInterpreters l).registry = s.registry := rfl
@[simp] theorem State.setInterpreters_hires (l : List Interpreter) : (s.setInterpreters l).hires = s.hires := rfl
@[simp] theorem State.setInterpreters_settlement (l : List Interpreter) :
    (s.setInterpreters l).settlement = s.settlement := rfl
@[simp] theorem State.setInterpreters_session (l : List Interpreter) :
    (s.setInterpreters l).session = s.session := rfl
@[simp] theorem State.setInterpreters_ports (l : List Interpreter) : (s.setInterpreters l).ports = s.ports := rfl
@[simp] theorem State.setInterpreters_faults (l : List Interpreter) : (s.setInterpreters l).faults = s.faults := rfl
@[simp] theorem State.setInterpreters_retention (l : List Interpreter) :
    (s.setInterpreters l).retention = { s.retention with intact := s.retention.intact.set 7 true } := rfl
@[simp] theorem State.setInterpreters_pending (l : List Interpreter) :
    (s.setInterpreters l).pending = s.pending := rfl
@[simp] theorem State.setInterpreters_startUpsCut (l : List Interpreter) :
    (s.setInterpreters l).startUpsCut = s.startUpsCut := rfl
@[simp] theorem State.setInterpreters_checkSince (l : List Interpreter) :
    (s.setInterpreters l).checkSince = s.checkSince := rfl

/-! ### State.modifyProgram -/

@[simp] theorem State.modifyProgram_now (p : Prog) (f : Program → Program) : (s.modifyProgram p f).now = s.now := rfl
@[simp] theorem State.modifyProgram_powered (p : Prog) (f : Program → Program) :
    (s.modifyProgram p f).powered = s.powered := rfl
@[simp] theorem State.modifyProgram_resetAsserted (p : Prog) (f : Program → Program) :
    (s.modifyProgram p f).resetAsserted = s.resetAsserted := rfl
@[simp] theorem State.modifyProgram_startup (p : Prog) (f : Program → Program) :
    (s.modifyProgram p f).startup = s.startup := rfl
@[simp] theorem State.modifyProgram_booth (p : Prog) (f : Program → Program) :
    (s.modifyProgram p f).booth = s.booth := rfl
@[simp] theorem State.modifyProgram_programs (p : Prog) (f : Program → Program) :
    (s.modifyProgram p f).programs = s.programs.modify p f := rfl
@[simp] theorem State.modifyProgram_planner (p : Prog) (f : Program → Program) :
    (s.modifyProgram p f).planner = s.planner := rfl
@[simp] theorem State.modifyProgram_link (p : Prog) (f : Program → Program) :
    (s.modifyProgram p f).link = s.link := rfl
@[simp] theorem State.modifyProgram_registry (p : Prog) (f : Program → Program) :
    (s.modifyProgram p f).registry = s.registry := rfl
@[simp] theorem State.modifyProgram_hires (p : Prog) (f : Program → Program) :
    (s.modifyProgram p f).hires = s.hires := rfl
@[simp] theorem State.modifyProgram_settlement (p : Prog) (f : Program → Program) :
    (s.modifyProgram p f).settlement = s.settlement := rfl
@[simp] theorem State.modifyProgram_session (p : Prog) (f : Program → Program) :
    (s.modifyProgram p f).session = s.session := rfl
@[simp] theorem State.modifyProgram_ports (p : Prog) (f : Program → Program) :
    (s.modifyProgram p f).ports = s.ports := rfl
@[simp] theorem State.modifyProgram_faults (p : Prog) (f : Program → Program) :
    (s.modifyProgram p f).faults = s.faults := rfl
@[simp] theorem State.modifyProgram_retention (p : Prog) (f : Program → Program) :
    (s.modifyProgram p f).retention = s.retention := rfl
@[simp] theorem State.modifyProgram_pending (p : Prog) (f : Program → Program) :
    (s.modifyProgram p f).pending = s.pending := rfl
@[simp] theorem State.modifyProgram_startUpsCut (p : Prog) (f : Program → Program) :
    (s.modifyProgram p f).startUpsCut = s.startUpsCut := rfl
@[simp] theorem State.modifyProgram_checkSince (p : Prog) (f : Program → Program) :
    (s.modifyProgram p f).checkSince = s.checkSince := rfl

/-! ### State.writePrograms -/

@[simp] theorem State.writePrograms_now (f : Prog → Program → Program) : (s.writePrograms f).now = s.now := rfl
@[simp] theorem State.writePrograms_powered (f : Prog → Program → Program) :
    (s.writePrograms f).powered = s.powered := rfl
@[simp] theorem State.writePrograms_resetAsserted (f : Prog → Program → Program) :
    (s.writePrograms f).resetAsserted = s.resetAsserted := rfl
@[simp] theorem State.writePrograms_startup (f : Prog → Program → Program) :
    (s.writePrograms f).startup = s.startup := rfl
@[simp] theorem State.writePrograms_booth (f : Prog → Program → Program) : (s.writePrograms f).booth = s.booth := rfl
@[simp] theorem State.writePrograms_programs (f : Prog → Program → Program) :
    (s.writePrograms f).programs = s.programs.mapIdx f := rfl
@[simp] theorem State.writePrograms_planner (f : Prog → Program → Program) :
    (s.writePrograms f).planner = s.planner := rfl
@[simp] theorem State.writePrograms_link (f : Prog → Program → Program) : (s.writePrograms f).link = s.link := rfl
@[simp] theorem State.writePrograms_registry (f : Prog → Program → Program) :
    (s.writePrograms f).registry = s.registry := rfl
@[simp] theorem State.writePrograms_hires (f : Prog → Program → Program) : (s.writePrograms f).hires = s.hires := rfl
@[simp] theorem State.writePrograms_settlement (f : Prog → Program → Program) :
    (s.writePrograms f).settlement = s.settlement := rfl
@[simp] theorem State.writePrograms_session (f : Prog → Program → Program) :
    (s.writePrograms f).session = s.session := rfl
@[simp] theorem State.writePrograms_ports (f : Prog → Program → Program) : (s.writePrograms f).ports = s.ports := rfl
@[simp] theorem State.writePrograms_faults (f : Prog → Program → Program) :
    (s.writePrograms f).faults = s.faults := rfl
@[simp] theorem State.writePrograms_retention (f : Prog → Program → Program) :
    (s.writePrograms f).retention = { s.retention with intact := s.retention.intact.set 4 true } := rfl
@[simp] theorem State.writePrograms_pending (f : Prog → Program → Program) :
    (s.writePrograms f).pending = s.pending := rfl
@[simp] theorem State.writePrograms_startUpsCut (f : Prog → Program → Program) :
    (s.writePrograms f).startUpsCut = s.startUpsCut := rfl
@[simp] theorem State.writePrograms_checkSince (f : Prog → Program → Program) :
    (s.writePrograms f).checkSince = s.checkSince := rfl

/-! ### State.setProgConfig -/

@[simp] theorem State.setProgConfig_now (p : Prog) (c : ProgConfig) : (s.setProgConfig p c).now = s.now := rfl
@[simp] theorem State.setProgConfig_powered (p : Prog) (c : ProgConfig) :
    (s.setProgConfig p c).powered = s.powered := rfl
@[simp] theorem State.setProgConfig_resetAsserted (p : Prog) (c : ProgConfig) :
    (s.setProgConfig p c).resetAsserted = s.resetAsserted := rfl
@[simp] theorem State.setProgConfig_startup (p : Prog) (c : ProgConfig) :
    (s.setProgConfig p c).startup = s.startup := rfl
@[simp] theorem State.setProgConfig_booth (p : Prog) (c : ProgConfig) : (s.setProgConfig p c).booth = s.booth := rfl
@[simp] theorem State.setProgConfig_programs (p : Prog) (c : ProgConfig) :
    (s.setProgConfig p c).programs = s.programs.modify p fun r => { r with config := c } := rfl
@[simp] theorem State.setProgConfig_planner (p : Prog) (c : ProgConfig) :
    (s.setProgConfig p c).planner = s.planner := rfl
@[simp] theorem State.setProgConfig_link (p : Prog) (c : ProgConfig) : (s.setProgConfig p c).link = s.link := rfl
@[simp] theorem State.setProgConfig_registry (p : Prog) (c : ProgConfig) :
    (s.setProgConfig p c).registry = s.registry := rfl
@[simp] theorem State.setProgConfig_hires (p : Prog) (c : ProgConfig) : (s.setProgConfig p c).hires = s.hires := rfl
@[simp] theorem State.setProgConfig_settlement (p : Prog) (c : ProgConfig) :
    (s.setProgConfig p c).settlement = s.settlement := rfl
@[simp] theorem State.setProgConfig_session (p : Prog) (c : ProgConfig) :
    (s.setProgConfig p c).session = s.session := rfl
@[simp] theorem State.setProgConfig_ports (p : Prog) (c : ProgConfig) : (s.setProgConfig p c).ports = s.ports := rfl
@[simp] theorem State.setProgConfig_faults (p : Prog) (c : ProgConfig) :
    (s.setProgConfig p c).faults = s.faults := rfl
@[simp] theorem State.setProgConfig_retention (p : Prog) (c : ProgConfig) :
    (s.setProgConfig p c).retention = { s.retention with intact := s.retention.intact.set 4 true } := rfl
@[simp] theorem State.setProgConfig_pending (p : Prog) (c : ProgConfig) :
    (s.setProgConfig p c).pending = s.pending := rfl
@[simp] theorem State.setProgConfig_startUpsCut (p : Prog) (c : ProgConfig) :
    (s.setProgConfig p c).startUpsCut = s.startUpsCut := rfl
@[simp] theorem State.setProgConfig_checkSince (p : Prog) (c : ProgConfig) :
    (s.setProgConfig p c).checkSince = s.checkSince := rfl

/-! ### State.setReceivers -/

@[simp] theorem State.setReceivers_now (l : List Receiver) : (s.setReceivers l).now = s.now := rfl
@[simp] theorem State.setReceivers_powered (l : List Receiver) : (s.setReceivers l).powered = s.powered := rfl
@[simp] theorem State.setReceivers_resetAsserted (l : List Receiver) :
    (s.setReceivers l).resetAsserted = s.resetAsserted := rfl
@[simp] theorem State.setReceivers_startup (l : List Receiver) : (s.setReceivers l).startup = s.startup := rfl
@[simp] theorem State.setReceivers_booth (l : List Receiver) : (s.setReceivers l).booth = s.booth := rfl
@[simp] theorem State.setReceivers_programs (l : List Receiver) : (s.setReceivers l).programs = s.programs := rfl
@[simp] theorem State.setReceivers_planner (l : List Receiver) : (s.setReceivers l).planner = s.planner := rfl
@[simp] theorem State.setReceivers_link (l : List Receiver) : (s.setReceivers l).link = s.link := rfl
@[simp] theorem State.setReceivers_registry (l : List Receiver) :
    (s.setReceivers l).registry = { s.registry with receivers := l } := rfl
@[simp] theorem State.setReceivers_hires (l : List Receiver) : (s.setReceivers l).hires = s.hires := rfl
@[simp] theorem State.setReceivers_settlement (l : List Receiver) :
    (s.setReceivers l).settlement = s.settlement := rfl
@[simp] theorem State.setReceivers_session (l : List Receiver) : (s.setReceivers l).session = s.session := rfl
@[simp] theorem State.setReceivers_ports (l : List Receiver) : (s.setReceivers l).ports = s.ports := rfl
@[simp] theorem State.setReceivers_faults (l : List Receiver) : (s.setReceivers l).faults = s.faults := rfl
@[simp] theorem State.setReceivers_retention (l : List Receiver) :
    (s.setReceivers l).retention = { s.retention with intact := s.retention.intact.set 0 true } := rfl
@[simp] theorem State.setReceivers_pending (l : List Receiver) : (s.setReceivers l).pending = s.pending := rfl
@[simp] theorem State.setReceivers_startUpsCut (l : List Receiver) :
    (s.setReceivers l).startUpsCut = s.startUpsCut := rfl
@[simp] theorem State.setReceivers_checkSince (l : List Receiver) :
    (s.setReceivers l).checkSince = s.checkSince := rfl

/-! ### State.setSlot -/

@[simp] theorem State.setSlot_now (k : Fin 512) (v : Option Nat) : (s.setSlot k v).now = s.now := rfl
@[simp] theorem State.setSlot_powered (k : Fin 512) (v : Option Nat) : (s.setSlot k v).powered = s.powered := rfl
@[simp] theorem State.setSlot_resetAsserted (k : Fin 512) (v : Option Nat) :
    (s.setSlot k v).resetAsserted = s.resetAsserted := rfl
@[simp] theorem State.setSlot_startup (k : Fin 512) (v : Option Nat) : (s.setSlot k v).startup = s.startup := rfl
@[simp] theorem State.setSlot_booth (k : Fin 512) (v : Option Nat) : (s.setSlot k v).booth = s.booth := rfl
@[simp] theorem State.setSlot_programs (k : Fin 512) (v : Option Nat) : (s.setSlot k v).programs = s.programs := rfl
@[simp] theorem State.setSlot_planner (k : Fin 512) (v : Option Nat) : (s.setSlot k v).planner = s.planner := rfl
@[simp] theorem State.setSlot_link (k : Fin 512) (v : Option Nat) : (s.setSlot k v).link = s.link := rfl
@[simp] theorem State.setSlot_registry (k : Fin 512) (v : Option Nat) :
    (s.setSlot k v).registry = { s.registry with slots := s.registry.slots.set k v } := rfl
@[simp] theorem State.setSlot_hires (k : Fin 512) (v : Option Nat) : (s.setSlot k v).hires = s.hires := rfl
@[simp] theorem State.setSlot_settlement (k : Fin 512) (v : Option Nat) :
    (s.setSlot k v).settlement = s.settlement := rfl
@[simp] theorem State.setSlot_session (k : Fin 512) (v : Option Nat) : (s.setSlot k v).session = s.session := rfl
@[simp] theorem State.setSlot_ports (k : Fin 512) (v : Option Nat) : (s.setSlot k v).ports = s.ports := rfl
@[simp] theorem State.setSlot_faults (k : Fin 512) (v : Option Nat) : (s.setSlot k v).faults = s.faults := rfl
@[simp] theorem State.setSlot_retention (k : Fin 512) (v : Option Nat) :
    (s.setSlot k v).retention = { s.retention with intact := s.retention.intact.set 0 true } := rfl
@[simp] theorem State.setSlot_pending (k : Fin 512) (v : Option Nat) : (s.setSlot k v).pending = s.pending := rfl
@[simp] theorem State.setSlot_startUpsCut (k : Fin 512) (v : Option Nat) :
    (s.setSlot k v).startUpsCut = s.startUpsCut := rfl
@[simp] theorem State.setSlot_checkSince (k : Fin 512) (v : Option Nat) :
    (s.setSlot k v).checkSince = s.checkSince := rfl

/-! ### State.setStocktake -/

@[simp] theorem State.setStocktake_now (k : Stocktake) : (s.setStocktake k).now = s.now := rfl
@[simp] theorem State.setStocktake_powered (k : Stocktake) : (s.setStocktake k).powered = s.powered := rfl
@[simp] theorem State.setStocktake_resetAsserted (k : Stocktake) :
    (s.setStocktake k).resetAsserted = s.resetAsserted := rfl
@[simp] theorem State.setStocktake_startup (k : Stocktake) : (s.setStocktake k).startup = s.startup := rfl
@[simp] theorem State.setStocktake_booth (k : Stocktake) : (s.setStocktake k).booth = s.booth := rfl
@[simp] theorem State.setStocktake_programs (k : Stocktake) : (s.setStocktake k).programs = s.programs := rfl
@[simp] theorem State.setStocktake_planner (k : Stocktake) : (s.setStocktake k).planner = s.planner := rfl
@[simp] theorem State.setStocktake_link (k : Stocktake) : (s.setStocktake k).link = s.link := rfl
@[simp] theorem State.setStocktake_registry (k : Stocktake) :
    (s.setStocktake k).registry = { s.registry with stocktake := k } := rfl
@[simp] theorem State.setStocktake_hires (k : Stocktake) : (s.setStocktake k).hires = s.hires := rfl
@[simp] theorem State.setStocktake_settlement (k : Stocktake) : (s.setStocktake k).settlement = s.settlement := rfl
@[simp] theorem State.setStocktake_session (k : Stocktake) : (s.setStocktake k).session = s.session := rfl
@[simp] theorem State.setStocktake_ports (k : Stocktake) : (s.setStocktake k).ports = s.ports := rfl
@[simp] theorem State.setStocktake_faults (k : Stocktake) : (s.setStocktake k).faults = s.faults := rfl
@[simp] theorem State.setStocktake_retention (k : Stocktake) : (s.setStocktake k).retention = s.retention := rfl
@[simp] theorem State.setStocktake_pending (k : Stocktake) : (s.setStocktake k).pending = s.pending := rfl
@[simp] theorem State.setStocktake_startUpsCut (k : Stocktake) : (s.setStocktake k).startUpsCut = s.startUpsCut := rfl
@[simp] theorem State.setStocktake_checkSince (k : Stocktake) : (s.setStocktake k).checkSince = s.checkSince := rfl

/-! ### State.setHires -/

@[simp] theorem State.setHires_now (l : List Hire) : (s.setHires l).now = s.now := rfl
@[simp] theorem State.setHires_powered (l : List Hire) : (s.setHires l).powered = s.powered := rfl
@[simp] theorem State.setHires_resetAsserted (l : List Hire) : (s.setHires l).resetAsserted = s.resetAsserted := rfl
@[simp] theorem State.setHires_startup (l : List Hire) : (s.setHires l).startup = s.startup := rfl
@[simp] theorem State.setHires_booth (l : List Hire) : (s.setHires l).booth = s.booth := rfl
@[simp] theorem State.setHires_programs (l : List Hire) : (s.setHires l).programs = s.programs := rfl
@[simp] theorem State.setHires_planner (l : List Hire) : (s.setHires l).planner = s.planner := rfl
@[simp] theorem State.setHires_link (l : List Hire) : (s.setHires l).link = s.link := rfl
@[simp] theorem State.setHires_registry (l : List Hire) : (s.setHires l).registry = s.registry := rfl
@[simp] theorem State.setHires_hires (l : List Hire) : (s.setHires l).hires = { s.hires with records := l } := rfl
@[simp] theorem State.setHires_settlement (l : List Hire) : (s.setHires l).settlement = s.settlement := rfl
@[simp] theorem State.setHires_session (l : List Hire) : (s.setHires l).session = s.session := rfl
@[simp] theorem State.setHires_ports (l : List Hire) : (s.setHires l).ports = s.ports := rfl
@[simp] theorem State.setHires_faults (l : List Hire) : (s.setHires l).faults = s.faults := rfl
@[simp] theorem State.setHires_retention (l : List Hire) :
    (s.setHires l).retention = { s.retention with intact := s.retention.intact.set 1 true } := rfl
@[simp] theorem State.setHires_pending (l : List Hire) : (s.setHires l).pending = s.pending := rfl
@[simp] theorem State.setHires_startUpsCut (l : List Hire) : (s.setHires l).startUpsCut = s.startUpsCut := rfl
@[simp] theorem State.setHires_checkSince (l : List Hire) : (s.setHires l).checkSince = s.checkSince := rfl

/-! ### State.setHireCounter -/

@[simp] theorem State.setHireCounter_now (n : Nat) : (s.setHireCounter n).now = s.now := rfl
@[simp] theorem State.setHireCounter_powered (n : Nat) : (s.setHireCounter n).powered = s.powered := rfl
@[simp] theorem State.setHireCounter_resetAsserted (n : Nat) :
    (s.setHireCounter n).resetAsserted = s.resetAsserted := rfl
@[simp] theorem State.setHireCounter_startup (n : Nat) : (s.setHireCounter n).startup = s.startup := rfl
@[simp] theorem State.setHireCounter_booth (n : Nat) : (s.setHireCounter n).booth = s.booth := rfl
@[simp] theorem State.setHireCounter_programs (n : Nat) : (s.setHireCounter n).programs = s.programs := rfl
@[simp] theorem State.setHireCounter_planner (n : Nat) : (s.setHireCounter n).planner = s.planner := rfl
@[simp] theorem State.setHireCounter_link (n : Nat) : (s.setHireCounter n).link = s.link := rfl
@[simp] theorem State.setHireCounter_registry (n : Nat) : (s.setHireCounter n).registry = s.registry := rfl
@[simp] theorem State.setHireCounter_hires (n : Nat) :
    (s.setHireCounter n).hires = { s.hires with counter := n } := rfl
@[simp] theorem State.setHireCounter_settlement (n : Nat) : (s.setHireCounter n).settlement = s.settlement := rfl
@[simp] theorem State.setHireCounter_session (n : Nat) : (s.setHireCounter n).session = s.session := rfl
@[simp] theorem State.setHireCounter_ports (n : Nat) : (s.setHireCounter n).ports = s.ports := rfl
@[simp] theorem State.setHireCounter_faults (n : Nat) : (s.setHireCounter n).faults = s.faults := rfl
@[simp] theorem State.setHireCounter_retention (n : Nat) :
    (s.setHireCounter n).retention = { s.retention with intact := s.retention.intact.set 1 true } := rfl
@[simp] theorem State.setHireCounter_pending (n : Nat) : (s.setHireCounter n).pending = s.pending := rfl
@[simp] theorem State.setHireCounter_startUpsCut (n : Nat) : (s.setHireCounter n).startUpsCut = s.startUpsCut := rfl
@[simp] theorem State.setHireCounter_checkSince (n : Nat) : (s.setHireCounter n).checkSince = s.checkSince := rfl

/-! ### State.setQueue -/

@[simp] theorem State.setQueue_now (l : List Settled) : (s.setQueue l).now = s.now := rfl
@[simp] theorem State.setQueue_powered (l : List Settled) : (s.setQueue l).powered = s.powered := rfl
@[simp] theorem State.setQueue_resetAsserted (l : List Settled) :
    (s.setQueue l).resetAsserted = s.resetAsserted := rfl
@[simp] theorem State.setQueue_startup (l : List Settled) : (s.setQueue l).startup = s.startup := rfl
@[simp] theorem State.setQueue_booth (l : List Settled) : (s.setQueue l).booth = s.booth := rfl
@[simp] theorem State.setQueue_programs (l : List Settled) : (s.setQueue l).programs = s.programs := rfl
@[simp] theorem State.setQueue_planner (l : List Settled) : (s.setQueue l).planner = s.planner := rfl
@[simp] theorem State.setQueue_link (l : List Settled) : (s.setQueue l).link = s.link := rfl
@[simp] theorem State.setQueue_registry (l : List Settled) : (s.setQueue l).registry = s.registry := rfl
@[simp] theorem State.setQueue_hires (l : List Settled) : (s.setQueue l).hires = s.hires := rfl
@[simp] theorem State.setQueue_settlement (l : List Settled) :
    (s.setQueue l).settlement = { s.settlement with queue := l } := rfl
@[simp] theorem State.setQueue_session (l : List Settled) : (s.setQueue l).session = s.session := rfl
@[simp] theorem State.setQueue_ports (l : List Settled) : (s.setQueue l).ports = s.ports := rfl
@[simp] theorem State.setQueue_faults (l : List Settled) : (s.setQueue l).faults = s.faults := rfl
@[simp] theorem State.setQueue_retention (l : List Settled) :
    (s.setQueue l).retention = { s.retention with intact := s.retention.intact.set 2 true } := rfl
@[simp] theorem State.setQueue_pending (l : List Settled) : (s.setQueue l).pending = s.pending := rfl
@[simp] theorem State.setQueue_startUpsCut (l : List Settled) : (s.setQueue l).startUpsCut = s.startUpsCut := rfl
@[simp] theorem State.setQueue_checkSince (l : List Settled) : (s.setQueue l).checkSince = s.checkSince := rfl

/-! ### State.setTariff -/

@[simp] theorem State.setTariff_now (k : Fin 8) (t : Tariff) : (s.setTariff k t).now = s.now := rfl
@[simp] theorem State.setTariff_powered (k : Fin 8) (t : Tariff) : (s.setTariff k t).powered = s.powered := rfl
@[simp] theorem State.setTariff_resetAsserted (k : Fin 8) (t : Tariff) :
    (s.setTariff k t).resetAsserted = s.resetAsserted := rfl
@[simp] theorem State.setTariff_startup (k : Fin 8) (t : Tariff) : (s.setTariff k t).startup = s.startup := rfl
@[simp] theorem State.setTariff_booth (k : Fin 8) (t : Tariff) : (s.setTariff k t).booth = s.booth := rfl
@[simp] theorem State.setTariff_programs (k : Fin 8) (t : Tariff) : (s.setTariff k t).programs = s.programs := rfl
@[simp] theorem State.setTariff_planner (k : Fin 8) (t : Tariff) : (s.setTariff k t).planner = s.planner := rfl
@[simp] theorem State.setTariff_link (k : Fin 8) (t : Tariff) : (s.setTariff k t).link = s.link := rfl
@[simp] theorem State.setTariff_registry (k : Fin 8) (t : Tariff) : (s.setTariff k t).registry = s.registry := rfl
@[simp] theorem State.setTariff_hires (k : Fin 8) (t : Tariff) : (s.setTariff k t).hires = s.hires := rfl
@[simp] theorem State.setTariff_settlement (k : Fin 8) (t : Tariff) :
    (s.setTariff k t).settlement = { s.settlement with tariffs := s.settlement.tariffs.set k t } := rfl
@[simp] theorem State.setTariff_session (k : Fin 8) (t : Tariff) : (s.setTariff k t).session = s.session := rfl
@[simp] theorem State.setTariff_ports (k : Fin 8) (t : Tariff) : (s.setTariff k t).ports = s.ports := rfl
@[simp] theorem State.setTariff_faults (k : Fin 8) (t : Tariff) : (s.setTariff k t).faults = s.faults := rfl
@[simp] theorem State.setTariff_retention (k : Fin 8) (t : Tariff) :
    (s.setTariff k t).retention = { s.retention with intact := s.retention.intact.set 3 true } := rfl
@[simp] theorem State.setTariff_pending (k : Fin 8) (t : Tariff) : (s.setTariff k t).pending = s.pending := rfl
@[simp] theorem State.setTariff_startUpsCut (k : Fin 8) (t : Tariff) :
    (s.setTariff k t).startUpsCut = s.startUpsCut := rfl
@[simp] theorem State.setTariff_checkSince (k : Fin 8) (t : Tariff) :
    (s.setTariff k t).checkSince = s.checkSince := rfl

/-! ### State.setClock -/

@[simp] theorem State.setClock_now (t : HallTime) (v : Bool) : (s.setClock t v).now = s.now := rfl
@[simp] theorem State.setClock_powered (t : HallTime) (v : Bool) : (s.setClock t v).powered = s.powered := rfl
@[simp] theorem State.setClock_resetAsserted (t : HallTime) (v : Bool) :
    (s.setClock t v).resetAsserted = s.resetAsserted := rfl
@[simp] theorem State.setClock_startup (t : HallTime) (v : Bool) : (s.setClock t v).startup = s.startup := rfl
@[simp] theorem State.setClock_booth (t : HallTime) (v : Bool) : (s.setClock t v).booth = s.booth := rfl
@[simp] theorem State.setClock_programs (t : HallTime) (v : Bool) : (s.setClock t v).programs = s.programs := rfl
@[simp] theorem State.setClock_planner (t : HallTime) (v : Bool) : (s.setClock t v).planner = s.planner := rfl
@[simp] theorem State.setClock_link (t : HallTime) (v : Bool) : (s.setClock t v).link = s.link := rfl
@[simp] theorem State.setClock_registry (t : HallTime) (v : Bool) : (s.setClock t v).registry = s.registry := rfl
@[simp] theorem State.setClock_hires (t : HallTime) (v : Bool) : (s.setClock t v).hires = s.hires := rfl
@[simp] theorem State.setClock_settlement (t : HallTime) (v : Bool) :
    (s.setClock t v).settlement = s.settlement := rfl
@[simp] theorem State.setClock_session (t : HallTime) (v : Bool) :
    (s.setClock t v).session = { s.session with clock := t, valid := v } := rfl
@[simp] theorem State.setClock_ports (t : HallTime) (v : Bool) : (s.setClock t v).ports = s.ports := rfl
@[simp] theorem State.setClock_faults (t : HallTime) (v : Bool) : (s.setClock t v).faults = s.faults := rfl
@[simp] theorem State.setClock_retention (t : HallTime) (v : Bool) :
    (s.setClock t v).retention = { s.retention with intact := s.retention.intact.set 8 true } := rfl
@[simp] theorem State.setClock_pending (t : HallTime) (v : Bool) : (s.setClock t v).pending = s.pending := rfl
@[simp] theorem State.setClock_startUpsCut (t : HallTime) (v : Bool) :
    (s.setClock t v).startUpsCut = s.startUpsCut := rfl
@[simp] theorem State.setClock_checkSince (t : HallTime) (v : Bool) :
    (s.setClock t v).checkSince = s.checkSince := rfl

/-! ### State.setRestart -/

@[simp] theorem State.setRestart_now (n : BitVec 16) (c : RestartCause) : (s.setRestart n c).now = s.now := rfl
@[simp] theorem State.setRestart_powered (n : BitVec 16) (c : RestartCause) :
    (s.setRestart n c).powered = s.powered := rfl
@[simp] theorem State.setRestart_resetAsserted (n : BitVec 16) (c : RestartCause) :
    (s.setRestart n c).resetAsserted = s.resetAsserted := rfl
@[simp] theorem State.setRestart_startup (n : BitVec 16) (c : RestartCause) :
    (s.setRestart n c).startup = s.startup := rfl
@[simp] theorem State.setRestart_booth (n : BitVec 16) (c : RestartCause) : (s.setRestart n c).booth = s.booth := rfl
@[simp] theorem State.setRestart_programs (n : BitVec 16) (c : RestartCause) :
    (s.setRestart n c).programs = s.programs := rfl
@[simp] theorem State.setRestart_planner (n : BitVec 16) (c : RestartCause) :
    (s.setRestart n c).planner = s.planner := rfl
@[simp] theorem State.setRestart_link (n : BitVec 16) (c : RestartCause) : (s.setRestart n c).link = s.link := rfl
@[simp] theorem State.setRestart_registry (n : BitVec 16) (c : RestartCause) :
    (s.setRestart n c).registry = s.registry := rfl
@[simp] theorem State.setRestart_hires (n : BitVec 16) (c : RestartCause) : (s.setRestart n c).hires = s.hires := rfl
@[simp] theorem State.setRestart_settlement (n : BitVec 16) (c : RestartCause) :
    (s.setRestart n c).settlement = s.settlement := rfl
@[simp] theorem State.setRestart_session (n : BitVec 16) (c : RestartCause) :
    (s.setRestart n c).session = { s.session with restartCount := n, restartCause := c } := rfl
@[simp] theorem State.setRestart_ports (n : BitVec 16) (c : RestartCause) : (s.setRestart n c).ports = s.ports := rfl
@[simp] theorem State.setRestart_faults (n : BitVec 16) (c : RestartCause) :
    (s.setRestart n c).faults = s.faults := rfl
@[simp] theorem State.setRestart_retention (n : BitVec 16) (c : RestartCause) :
    (s.setRestart n c).retention = { s.retention with intact := s.retention.intact.set 8 true } := rfl
@[simp] theorem State.setRestart_pending (n : BitVec 16) (c : RestartCause) :
    (s.setRestart n c).pending = s.pending := rfl
@[simp] theorem State.setRestart_startUpsCut (n : BitVec 16) (c : RestartCause) :
    (s.setRestart n c).startUpsCut = s.startUpsCut := rfl
@[simp] theorem State.setRestart_checkSince (n : BitVec 16) (c : RestartCause) :
    (s.setRestart n c).checkSince = s.checkSince := rfl

/-! ### State.restartTickWatch -/

@[simp] theorem State.restartTickWatch_now : (s.restartTickWatch).now = s.now := rfl
@[simp] theorem State.restartTickWatch_powered : (s.restartTickWatch).powered = s.powered := rfl
@[simp] theorem State.restartTickWatch_resetAsserted : (s.restartTickWatch).resetAsserted = s.resetAsserted := rfl
@[simp] theorem State.restartTickWatch_startup : (s.restartTickWatch).startup = s.startup := rfl
@[simp] theorem State.restartTickWatch_booth : (s.restartTickWatch).booth = s.booth := rfl
@[simp] theorem State.restartTickWatch_programs : (s.restartTickWatch).programs = s.programs := rfl
@[simp] theorem State.restartTickWatch_planner : (s.restartTickWatch).planner = s.planner := rfl
@[simp] theorem State.restartTickWatch_link : (s.restartTickWatch).link = s.link := rfl
@[simp] theorem State.restartTickWatch_registry : (s.restartTickWatch).registry = s.registry := rfl
@[simp] theorem State.restartTickWatch_hires : (s.restartTickWatch).hires = s.hires := rfl
@[simp] theorem State.restartTickWatch_settlement : (s.restartTickWatch).settlement = s.settlement := rfl
@[simp] theorem State.restartTickWatch_session :
    (s.restartTickWatch).session = { s.session with tickSince := s.now, tickLost := false } := rfl
@[simp] theorem State.restartTickWatch_ports : (s.restartTickWatch).ports = s.ports := rfl
@[simp] theorem State.restartTickWatch_faults : (s.restartTickWatch).faults = s.faults := rfl
@[simp] theorem State.restartTickWatch_retention : (s.restartTickWatch).retention = s.retention := rfl
@[simp] theorem State.restartTickWatch_pending : (s.restartTickWatch).pending = s.pending := rfl
@[simp] theorem State.restartTickWatch_startUpsCut : (s.restartTickWatch).startUpsCut = s.startUpsCut := rfl
@[simp] theorem State.restartTickWatch_checkSince : (s.restartTickWatch).checkSince = s.checkSince := rfl

/-! ### State.setSession -/

@[simp] theorem State.setSession_now (x : Session) : (s.setSession x).now = s.now := rfl
@[simp] theorem State.setSession_powered (x : Session) : (s.setSession x).powered = s.powered := rfl
@[simp] theorem State.setSession_resetAsserted (x : Session) : (s.setSession x).resetAsserted = s.resetAsserted := rfl
@[simp] theorem State.setSession_startup (x : Session) : (s.setSession x).startup = s.startup := rfl
@[simp] theorem State.setSession_booth (x : Session) : (s.setSession x).booth = s.booth := rfl
@[simp] theorem State.setSession_programs (x : Session) : (s.setSession x).programs = s.programs := rfl
@[simp] theorem State.setSession_planner (x : Session) : (s.setSession x).planner = s.planner := rfl
@[simp] theorem State.setSession_link (x : Session) : (s.setSession x).link = s.link := rfl
@[simp] theorem State.setSession_registry (x : Session) : (s.setSession x).registry = s.registry := rfl
@[simp] theorem State.setSession_hires (x : Session) : (s.setSession x).hires = s.hires := rfl
@[simp] theorem State.setSession_settlement (x : Session) : (s.setSession x).settlement = s.settlement := rfl
@[simp] theorem State.setSession_session (x : Session) :
    (s.setSession x).session = { s.session with state := x } := rfl
@[simp] theorem State.setSession_ports (x : Session) : (s.setSession x).ports = s.ports := rfl
@[simp] theorem State.setSession_faults (x : Session) : (s.setSession x).faults = s.faults := rfl
@[simp] theorem State.setSession_retention (x : Session) : (s.setSession x).retention = s.retention := rfl
@[simp] theorem State.setSession_pending (x : Session) : (s.setSession x).pending = s.pending := rfl
@[simp] theorem State.setSession_startUpsCut (x : Session) : (s.setSession x).startUpsCut = s.startUpsCut := rfl
@[simp] theorem State.setSession_checkSince (x : Session) : (s.setSession x).checkSince = s.checkSince := rfl

/-! ### State.modifyCounters -/

@[simp] theorem State.modifyCounters_now (f : DayCounters → DayCounters) : (s.modifyCounters f).now = s.now := rfl
@[simp] theorem State.modifyCounters_powered (f : DayCounters → DayCounters) :
    (s.modifyCounters f).powered = s.powered := rfl
@[simp] theorem State.modifyCounters_resetAsserted (f : DayCounters → DayCounters) :
    (s.modifyCounters f).resetAsserted = s.resetAsserted := rfl
@[simp] theorem State.modifyCounters_startup (f : DayCounters → DayCounters) :
    (s.modifyCounters f).startup = s.startup := rfl
@[simp] theorem State.modifyCounters_booth (f : DayCounters → DayCounters) :
    (s.modifyCounters f).booth = s.booth := rfl
@[simp] theorem State.modifyCounters_programs (f : DayCounters → DayCounters) :
    (s.modifyCounters f).programs = s.programs := rfl
@[simp] theorem State.modifyCounters_planner (f : DayCounters → DayCounters) :
    (s.modifyCounters f).planner = s.planner := rfl
@[simp] theorem State.modifyCounters_link (f : DayCounters → DayCounters) : (s.modifyCounters f).link = s.link := rfl
@[simp] theorem State.modifyCounters_registry (f : DayCounters → DayCounters) :
    (s.modifyCounters f).registry = s.registry := rfl
@[simp] theorem State.modifyCounters_hires (f : DayCounters → DayCounters) :
    (s.modifyCounters f).hires = s.hires := rfl
@[simp] theorem State.modifyCounters_settlement (f : DayCounters → DayCounters) :
    (s.modifyCounters f).settlement = s.settlement := rfl
@[simp] theorem State.modifyCounters_session (f : DayCounters → DayCounters) :
    (s.modifyCounters f).session = { s.session with counters := f s.session.counters } := rfl
@[simp] theorem State.modifyCounters_ports (f : DayCounters → DayCounters) :
    (s.modifyCounters f).ports = s.ports := rfl
@[simp] theorem State.modifyCounters_faults (f : DayCounters → DayCounters) :
    (s.modifyCounters f).faults = s.faults := rfl
@[simp] theorem State.modifyCounters_retention (f : DayCounters → DayCounters) :
    (s.modifyCounters f).retention = { s.retention with intact := s.retention.intact.set 9 true } := rfl
@[simp] theorem State.modifyCounters_pending (f : DayCounters → DayCounters) :
    (s.modifyCounters f).pending = s.pending := rfl
@[simp] theorem State.modifyCounters_startUpsCut (f : DayCounters → DayCounters) :
    (s.modifyCounters f).startUpsCut = s.startUpsCut := rfl
@[simp] theorem State.modifyCounters_checkSince (f : DayCounters → DayCounters) :
    (s.modifyCounters f).checkSince = s.checkSince := rfl

/-! ### State.countMs -/

@[simp] theorem State.countMs_now :
    s.countMs.now = if s.powered then min lastCount (s.now + 1) else s.now := by
  unfold State.countMs; split <;> rfl
@[simp] theorem State.countMs_powered : s.countMs.powered = s.powered := by unfold State.countMs; split <;> rfl
@[simp] theorem State.countMs_resetAsserted : s.countMs.resetAsserted = s.resetAsserted := by unfold State.countMs; split <;> rfl
@[simp] theorem State.countMs_startup : s.countMs.startup = s.startup := by unfold State.countMs; split <;> rfl
@[simp] theorem State.countMs_booth : s.countMs.booth = s.booth := by unfold State.countMs; split <;> rfl
@[simp] theorem State.countMs_programs : s.countMs.programs = s.programs := by unfold State.countMs; split <;> rfl
@[simp] theorem State.countMs_planner : s.countMs.planner = s.planner := by unfold State.countMs; split <;> rfl
@[simp] theorem State.countMs_link : s.countMs.link = s.link := by unfold State.countMs; split <;> rfl
@[simp] theorem State.countMs_registry : s.countMs.registry = s.registry := by unfold State.countMs; split <;> rfl
@[simp] theorem State.countMs_hires : s.countMs.hires = s.hires := by unfold State.countMs; split <;> rfl
@[simp] theorem State.countMs_settlement : s.countMs.settlement = s.settlement := by unfold State.countMs; split <;> rfl
@[simp] theorem State.countMs_session : s.countMs.session = s.session := by unfold State.countMs; split <;> rfl
@[simp] theorem State.countMs_ports : s.countMs.ports = s.ports := by unfold State.countMs; split <;> rfl
@[simp] theorem State.countMs_faults : s.countMs.faults = s.faults := by unfold State.countMs; split <;> rfl
@[simp] theorem State.countMs_retention : s.countMs.retention = s.retention := by unfold State.countMs; split <;> rfl
@[simp] theorem State.countMs_pending : s.countMs.pending = s.pending := by unfold State.countMs; split <;> rfl
@[simp] theorem State.countMs_startUpsCut : s.countMs.startUpsCut = s.startUpsCut := by unfold State.countMs; split <;> rfl
@[simp] theorem State.countMs_checkSince : s.countMs.checkSince = s.checkSince := by unfold State.countMs; split <;> rfl

/-! ### State.updateLink -/

@[simp] theorem State.updateLink_now (f : Link → Link) : (s.updateLink f).now = s.now := rfl
@[simp] theorem State.updateLink_powered (f : Link → Link) : (s.updateLink f).powered = s.powered := rfl
@[simp] theorem State.updateLink_resetAsserted (f : Link → Link) :
    (s.updateLink f).resetAsserted = s.resetAsserted := rfl
@[simp] theorem State.updateLink_startup (f : Link → Link) : (s.updateLink f).startup = s.startup := rfl
@[simp] theorem State.updateLink_booth (f : Link → Link) : (s.updateLink f).booth = s.booth := rfl
@[simp] theorem State.updateLink_programs (f : Link → Link) : (s.updateLink f).programs = s.programs := rfl
@[simp] theorem State.updateLink_planner (f : Link → Link) : (s.updateLink f).planner = s.planner := rfl
@[simp] theorem State.updateLink_link (f : Link → Link) : (s.updateLink f).link = (f s.link).watched s.now := rfl
@[simp] theorem State.updateLink_registry (f : Link → Link) : (s.updateLink f).registry = s.registry := rfl
@[simp] theorem State.updateLink_hires (f : Link → Link) : (s.updateLink f).hires = s.hires := rfl
@[simp] theorem State.updateLink_settlement (f : Link → Link) : (s.updateLink f).settlement = s.settlement := rfl
@[simp] theorem State.updateLink_session (f : Link → Link) : (s.updateLink f).session = s.session := rfl
@[simp] theorem State.updateLink_ports (f : Link → Link) : (s.updateLink f).ports = s.ports := rfl
@[simp] theorem State.updateLink_faults (f : Link → Link) : (s.updateLink f).faults = s.faults := rfl
@[simp] theorem State.updateLink_retention (f : Link → Link) : (s.updateLink f).retention = s.retention := rfl
@[simp] theorem State.updateLink_pending (f : Link → Link) : (s.updateLink f).pending = s.pending := rfl
@[simp] theorem State.updateLink_startUpsCut (f : Link → Link) : (s.updateLink f).startUpsCut = s.startUpsCut := rfl
@[simp] theorem State.updateLink_checkSince (f : Link → Link) : (s.updateLink f).checkSince = s.checkSince := rfl

/-! ### State.setHold -/

@[simp] theorem State.setHold_now (h : Option Shadow) : (s.setHold h).now = s.now := rfl
@[simp] theorem State.setHold_powered (h : Option Shadow) : (s.setHold h).powered = s.powered := rfl
@[simp] theorem State.setHold_resetAsserted (h : Option Shadow) : (s.setHold h).resetAsserted = s.resetAsserted := rfl
@[simp] theorem State.setHold_startup (h : Option Shadow) : (s.setHold h).startup = s.startup := rfl
@[simp] theorem State.setHold_booth (h : Option Shadow) : (s.setHold h).booth = s.booth := rfl
@[simp] theorem State.setHold_programs (h : Option Shadow) : (s.setHold h).programs = s.programs := rfl
@[simp] theorem State.setHold_planner (h : Option Shadow) :
    (s.setHold h).planner = { s.planner with hold := h } := rfl
@[simp] theorem State.setHold_link (h : Option Shadow) : (s.setHold h).link = s.link := rfl
@[simp] theorem State.setHold_registry (h : Option Shadow) : (s.setHold h).registry = s.registry := rfl
@[simp] theorem State.setHold_hires (h : Option Shadow) : (s.setHold h).hires = s.hires := rfl
@[simp] theorem State.setHold_settlement (h : Option Shadow) : (s.setHold h).settlement = s.settlement := rfl
@[simp] theorem State.setHold_session (h : Option Shadow) : (s.setHold h).session = s.session := rfl
@[simp] theorem State.setHold_ports (h : Option Shadow) : (s.setHold h).ports = s.ports := rfl
@[simp] theorem State.setHold_faults (h : Option Shadow) : (s.setHold h).faults = s.faults := rfl
@[simp] theorem State.setHold_retention (h : Option Shadow) : (s.setHold h).retention = s.retention := rfl
@[simp] theorem State.setHold_pending (h : Option Shadow) : (s.setHold h).pending = s.pending := rfl
@[simp] theorem State.setHold_startUpsCut (h : Option Shadow) : (s.setHold h).startUpsCut = s.startUpsCut := rfl
@[simp] theorem State.setHold_checkSince (h : Option Shadow) : (s.setHold h).checkSince = s.checkSince := rfl

/-! ### State.setBudget -/

@[simp] theorem State.setBudget_now (k : Fin 8) (v : Nat) : (s.setBudget k v).now = s.now := rfl
@[simp] theorem State.setBudget_powered (k : Fin 8) (v : Nat) : (s.setBudget k v).powered = s.powered := rfl
@[simp] theorem State.setBudget_resetAsserted (k : Fin 8) (v : Nat) :
    (s.setBudget k v).resetAsserted = s.resetAsserted := rfl
@[simp] theorem State.setBudget_startup (k : Fin 8) (v : Nat) : (s.setBudget k v).startup = s.startup := rfl
@[simp] theorem State.setBudget_booth (k : Fin 8) (v : Nat) : (s.setBudget k v).booth = s.booth := rfl
@[simp] theorem State.setBudget_programs (k : Fin 8) (v : Nat) : (s.setBudget k v).programs = s.programs := rfl
@[simp] theorem State.setBudget_planner (k : Fin 8) (v : Nat) :
    (s.setBudget k v).planner = { s.planner with budgets := s.planner.budgets.set k v } := rfl
@[simp] theorem State.setBudget_link (k : Fin 8) (v : Nat) : (s.setBudget k v).link = s.link := rfl
@[simp] theorem State.setBudget_registry (k : Fin 8) (v : Nat) : (s.setBudget k v).registry = s.registry := rfl
@[simp] theorem State.setBudget_hires (k : Fin 8) (v : Nat) : (s.setBudget k v).hires = s.hires := rfl
@[simp] theorem State.setBudget_settlement (k : Fin 8) (v : Nat) : (s.setBudget k v).settlement = s.settlement := rfl
@[simp] theorem State.setBudget_session (k : Fin 8) (v : Nat) : (s.setBudget k v).session = s.session := rfl
@[simp] theorem State.setBudget_ports (k : Fin 8) (v : Nat) : (s.setBudget k v).ports = s.ports := rfl
@[simp] theorem State.setBudget_faults (k : Fin 8) (v : Nat) : (s.setBudget k v).faults = s.faults := rfl
@[simp] theorem State.setBudget_retention (k : Fin 8) (v : Nat) :
    (s.setBudget k v).retention = { s.retention with intact := s.retention.intact.set 6 true } := rfl
@[simp] theorem State.setBudget_pending (k : Fin 8) (v : Nat) : (s.setBudget k v).pending = s.pending := rfl
@[simp] theorem State.setBudget_startUpsCut (k : Fin 8) (v : Nat) :
    (s.setBudget k v).startUpsCut = s.startUpsCut := rfl
@[simp] theorem State.setBudget_checkSince (k : Fin 8) (v : Nat) :
    (s.setBudget k v).checkSince = s.checkSince := rfl

/-! ### State.writeThreshold -/

@[simp] theorem State.writeThreshold_now (v : Nat) : (s.writeThreshold v).now = s.now := rfl
@[simp] theorem State.writeThreshold_powered (v : Nat) : (s.writeThreshold v).powered = s.powered := rfl
@[simp] theorem State.writeThreshold_resetAsserted (v : Nat) :
    (s.writeThreshold v).resetAsserted = s.resetAsserted := rfl
@[simp] theorem State.writeThreshold_startup (v : Nat) : (s.writeThreshold v).startup = s.startup := rfl
@[simp] theorem State.writeThreshold_booth (v : Nat) : (s.writeThreshold v).booth = s.booth := rfl
@[simp] theorem State.writeThreshold_programs (v : Nat) : (s.writeThreshold v).programs = s.programs := rfl
@[simp] theorem State.writeThreshold_planner (v : Nat) : (s.writeThreshold v).planner = s.planner := rfl
@[simp] theorem State.writeThreshold_link (v : Nat) : (s.writeThreshold v).link = s.link := rfl
@[simp] theorem State.writeThreshold_registry (v : Nat) :
    (s.writeThreshold v).registry = { s.registry with threshold := v } := rfl
@[simp] theorem State.writeThreshold_hires (v : Nat) : (s.writeThreshold v).hires = s.hires := rfl
@[simp] theorem State.writeThreshold_settlement (v : Nat) : (s.writeThreshold v).settlement = s.settlement := rfl
@[simp] theorem State.writeThreshold_session (v : Nat) : (s.writeThreshold v).session = s.session := rfl
@[simp] theorem State.writeThreshold_ports (v : Nat) : (s.writeThreshold v).ports = s.ports := rfl
@[simp] theorem State.writeThreshold_faults (v : Nat) : (s.writeThreshold v).faults = s.faults := rfl
@[simp] theorem State.writeThreshold_retention (v : Nat) :
    (s.writeThreshold v).retention = { s.retention with intact := s.retention.intact.set 6 true } := rfl
@[simp] theorem State.writeThreshold_pending (v : Nat) : (s.writeThreshold v).pending = s.pending := rfl
@[simp] theorem State.writeThreshold_startUpsCut (v : Nat) : (s.writeThreshold v).startUpsCut = s.startUpsCut := rfl
@[simp] theorem State.writeThreshold_checkSince (v : Nat) : (s.writeThreshold v).checkSince = s.checkSince := rfl

/-! ### State.setDay -/

@[simp] theorem State.setDay_now (d : Nat) (c : DayCounters) (x : Option DaySummary) :
    (s.setDay d c x).now = s.now := rfl
@[simp] theorem State.setDay_powered (d : Nat) (c : DayCounters) (x : Option DaySummary) :
    (s.setDay d c x).powered = s.powered := rfl
@[simp] theorem State.setDay_resetAsserted (d : Nat) (c : DayCounters) (x : Option DaySummary) :
    (s.setDay d c x).resetAsserted = s.resetAsserted := rfl
@[simp] theorem State.setDay_startup (d : Nat) (c : DayCounters) (x : Option DaySummary) :
    (s.setDay d c x).startup = s.startup := rfl
@[simp] theorem State.setDay_booth (d : Nat) (c : DayCounters) (x : Option DaySummary) :
    (s.setDay d c x).booth = s.booth := rfl
@[simp] theorem State.setDay_programs (d : Nat) (c : DayCounters) (x : Option DaySummary) :
    (s.setDay d c x).programs = s.programs := rfl
@[simp] theorem State.setDay_planner (d : Nat) (c : DayCounters) (x : Option DaySummary) :
    (s.setDay d c x).planner = s.planner := rfl
@[simp] theorem State.setDay_link (d : Nat) (c : DayCounters) (x : Option DaySummary) :
    (s.setDay d c x).link = s.link := rfl
@[simp] theorem State.setDay_registry (d : Nat) (c : DayCounters) (x : Option DaySummary) :
    (s.setDay d c x).registry = s.registry := rfl
@[simp] theorem State.setDay_hires (d : Nat) (c : DayCounters) (x : Option DaySummary) :
    (s.setDay d c x).hires = s.hires := rfl
@[simp] theorem State.setDay_settlement (d : Nat) (c : DayCounters) (x : Option DaySummary) :
    (s.setDay d c x).settlement = s.settlement := rfl
@[simp] theorem State.setDay_session (d : Nat) (c : DayCounters) (x : Option DaySummary) :
    (s.setDay d c x).session = { s.session with dayNumber := d, counters := c, summary := x } := rfl
@[simp] theorem State.setDay_ports (d : Nat) (c : DayCounters) (x : Option DaySummary) :
    (s.setDay d c x).ports = s.ports := rfl
@[simp] theorem State.setDay_faults (d : Nat) (c : DayCounters) (x : Option DaySummary) :
    (s.setDay d c x).faults = s.faults := rfl
@[simp] theorem State.setDay_retention (d : Nat) (c : DayCounters) (x : Option DaySummary) :
    (s.setDay d c x).retention = { s.retention with intact := s.retention.intact.set 9 true } := rfl
@[simp] theorem State.setDay_pending (d : Nat) (c : DayCounters) (x : Option DaySummary) :
    (s.setDay d c x).pending = s.pending := rfl
@[simp] theorem State.setDay_startUpsCut (d : Nat) (c : DayCounters) (x : Option DaySummary) :
    (s.setDay d c x).startUpsCut = s.startUpsCut := rfl
@[simp] theorem State.setDay_checkSince (d : Nat) (c : DayCounters) (x : Option DaySummary) :
    (s.setDay d c x).checkSince = s.checkSince := rfl

/-! ### State.setPort -/

@[simp] theorem State.setPort_now (p : Port) (v : PortState) : (s.setPort p v).now = s.now := by cases p <;> rfl
@[simp] theorem State.setPort_powered (p : Port) (v : PortState) : (s.setPort p v).powered = s.powered := by cases p <;> rfl
@[simp] theorem State.setPort_resetAsserted (p : Port) (v : PortState) : (s.setPort p v).resetAsserted = s.resetAsserted := by cases p <;> rfl
@[simp] theorem State.setPort_startup (p : Port) (v : PortState) : (s.setPort p v).startup = s.startup := by cases p <;> rfl
@[simp] theorem State.setPort_booth (p : Port) (v : PortState) : (s.setPort p v).booth = s.booth := by cases p <;> rfl
@[simp] theorem State.setPort_programs (p : Port) (v : PortState) : (s.setPort p v).programs = s.programs := by cases p <;> rfl
@[simp] theorem State.setPort_planner (p : Port) (v : PortState) : (s.setPort p v).planner = s.planner := by cases p <;> rfl
@[simp] theorem State.setPort_link (p : Port) (v : PortState) : (s.setPort p v).link = s.link := by cases p <;> rfl
@[simp] theorem State.setPort_registry (p : Port) (v : PortState) : (s.setPort p v).registry = s.registry := by cases p <;> rfl
@[simp] theorem State.setPort_hires (p : Port) (v : PortState) : (s.setPort p v).hires = s.hires := by cases p <;> rfl
@[simp] theorem State.setPort_settlement (p : Port) (v : PortState) : (s.setPort p v).settlement = s.settlement := by cases p <;> rfl
@[simp] theorem State.setPort_session (p : Port) (v : PortState) : (s.setPort p v).session = s.session := by cases p <;> rfl
@[simp] theorem State.setPort_faults (p : Port) (v : PortState) : (s.setPort p v).faults = s.faults := by cases p <;> rfl
@[simp] theorem State.setPort_retention (p : Port) (v : PortState) : (s.setPort p v).retention = s.retention := by cases p <;> rfl
@[simp] theorem State.setPort_pending (p : Port) (v : PortState) : (s.setPort p v).pending = s.pending := by cases p <;> rfl
@[simp] theorem State.setPort_startUpsCut (p : Port) (v : PortState) :
    (s.setPort p v).startUpsCut = s.startUpsCut := by cases p <;> rfl
@[simp] theorem State.setPort_checkSince (p : Port) (v : PortState) :
    (s.setPort p v).checkSince = s.checkSince := by cases p <;> rfl

/-! ### State.shiftOut -/

@[simp] theorem State.shiftOut_now (p : Port) (bs : List Byte) : (s.shiftOut p bs).now = s.now := by cases p <;> rfl
@[simp] theorem State.shiftOut_powered (p : Port) (bs : List Byte) : (s.shiftOut p bs).powered = s.powered := by cases p <;> rfl
@[simp] theorem State.shiftOut_resetAsserted (p : Port) (bs : List Byte) : (s.shiftOut p bs).resetAsserted = s.resetAsserted := by cases p <;> rfl
@[simp] theorem State.shiftOut_startup (p : Port) (bs : List Byte) : (s.shiftOut p bs).startup = s.startup := by cases p <;> rfl
@[simp] theorem State.shiftOut_booth (p : Port) (bs : List Byte) : (s.shiftOut p bs).booth = s.booth := by cases p <;> rfl
@[simp] theorem State.shiftOut_programs (p : Port) (bs : List Byte) : (s.shiftOut p bs).programs = s.programs := by cases p <;> rfl
@[simp] theorem State.shiftOut_planner (p : Port) (bs : List Byte) : (s.shiftOut p bs).planner = s.planner := by cases p <;> rfl
@[simp] theorem State.shiftOut_link (p : Port) (bs : List Byte) : (s.shiftOut p bs).link = s.link := by cases p <;> rfl
@[simp] theorem State.shiftOut_registry (p : Port) (bs : List Byte) : (s.shiftOut p bs).registry = s.registry := by cases p <;> rfl
@[simp] theorem State.shiftOut_hires (p : Port) (bs : List Byte) : (s.shiftOut p bs).hires = s.hires := by cases p <;> rfl
@[simp] theorem State.shiftOut_settlement (p : Port) (bs : List Byte) : (s.shiftOut p bs).settlement = s.settlement := by cases p <;> rfl
@[simp] theorem State.shiftOut_session (p : Port) (bs : List Byte) : (s.shiftOut p bs).session = s.session := by cases p <;> rfl
@[simp] theorem State.shiftOut_faults (p : Port) (bs : List Byte) : (s.shiftOut p bs).faults = s.faults := by cases p <;> rfl
@[simp] theorem State.shiftOut_retention (p : Port) (bs : List Byte) : (s.shiftOut p bs).retention = s.retention := by cases p <;> rfl
@[simp] theorem State.shiftOut_pending (p : Port) (bs : List Byte) : (s.shiftOut p bs).pending = s.pending := by cases p <;> rfl
@[simp] theorem State.shiftOut_startUpsCut (p : Port) (bs : List Byte) :
    (s.shiftOut p bs).startUpsCut = s.startUpsCut := by cases p <;> rfl
@[simp] theorem State.shiftOut_checkSince (p : Port) (bs : List Byte) :
    (s.shiftOut p bs).checkSince = s.checkSince := by cases p <;> rfl

@[simp] theorem State.setPort_port (p : Port) (v : PortState) : (s.setPort p v).port p = v := by cases p <;> rfl

theorem State.setPort_port_other (p q : Port) (v : PortState) (h : q ≠ p) : (s.setPort p v).port q = s.port q := by
  cases p <;> cases q <;> first | rfl | exact absurd rfl h

@[simp] theorem State.setPort_selfReset (p : Port) (v : PortState) :
    (s.setPort p v).ports.selfReset = s.ports.selfReset := by cases p <;> rfl

@[simp] theorem State.setPort_wire (p : Port) (v : PortState) : (s.setPort p v).ports.wire = s.ports.wire := by
  cases p <;> rfl

@[simp] theorem State.shiftOut_port (p q : Port) (bs : List Byte) : (s.shiftOut p bs).port q = s.port q := by
  cases p <;> cases q <;> rfl

@[simp] theorem State.shiftOut_selfReset (p : Port) (bs : List Byte) :
    (s.shiftOut p bs).ports.selfReset = s.ports.selfReset := by cases p <;> rfl

/-! ### Tables -/

theorem Table.get_eq {α : Type} {n : Nat} (t : Table α n) (i : Fin n) :
    t.get i = t.rows[i.val]'(t.size.symm ▸ i.isLt) := rfl

@[simp] theorem Table.get_set_same {α : Type} {n : Nat} (t : Table α n) (i : Fin n) (a : α) :
    (t.set i a).get i = a := by
  rw [Table.get_eq]; exact List.getElem_set_self _

theorem Table.get_set_other {α : Type} {n : Nat} (t : Table α n) (i j : Fin n) (a : α) (h : i ≠ j) :
    (t.set i a).get j = t.get j := by
  rw [Table.get_eq, Table.get_eq]; exact List.getElem_set_ne (fun e => h (Fin.ext e)) _

@[simp] theorem Table.get_ofFn {α : Type} {n : Nat} (f : Fin n → α) (i : Fin n) : (Table.ofFn f).get i = f i := by
  rw [Table.get_eq]; exact List.getElem_ofFn _

@[simp] theorem Table.get_map {α β : Type} {n : Nat} (f : α → β) (t : Table α n) (i : Fin n) :
    (t.map f).get i = f (t.get i) := by
  rw [Table.get_eq, Table.get_eq]; exact List.getElem_map _

@[simp] theorem Table.get_mapIdx {α β : Type} {n : Nat} (f : Fin n → α → β) (t : Table α n) (i : Fin n) :
    (t.mapIdx f).get i = f i (t.get i) := by
  simp [Table.mapIdx]

@[simp] theorem Table.get_replicate {α : Type} {n : Nat} (a : α) (i : Fin n) : (Table.replicate n a).get i = a := by
  rw [Table.get_eq]; exact List.getElem_replicate _

theorem Table.get_modify {α : Type} {n : Nat} (t : Table α n) (i j : Fin n) (f : α → α) :
    (t.modify i f).get j = if i = j then f (t.get i) else t.get j := by
  by_cases h : i = j
  · subst h; simp [Table.modify]
  · rw [Table.modify, Table.get_set_other t i j _ h, if_neg h]

end Sys2Proof.Machine
end

