-- ==== Sys2Proof/Laws/Ops.lean ====
section
/-! SUPPORT. What each shared operation can do, said once: which blocks a notice, a fault raise, a pass and the handling of
a request can touch. Later proofs cite these and do not unfold the operations. -/

namespace Sys2Proof.Machine

/-! ### Notices and faults touch the ports and the capture alone -/

/-- An update that touches the ports and the fault capture alone. -/
def State.Reports (s t : State) : Prop := t = { s with ports := t.ports, faults := t.faults }

theorem State.Reports.refl (s : State) : s.Reports s := rfl

theorem State.Reports.trans {s t u : State} (h : s.Reports t) (k : t.Reports u) : s.Reports u := by
  unfold State.Reports at *; rw [k, h]

theorem State.setPort_reports (s : State) (p : Port) (v : PortState) : s.Reports (s.setPort p v) := by
  cases p <;> rfl

theorem State.shiftOut_reports (s : State) (p : Port) (bs : List Byte) : s.Reports (s.shiftOut p bs) := by
  cases p <;> rfl

theorem State.offer_reports (s : State) (p : Port) (n : Notice) : s.Reports (s.offer p n).1 := by
  unfold State.offer
  dsimp only
  split
  · exact .refl s
  · split
    · exact s.setPort_reports p _
    · exact s.setPort_reports p _

/-- Everything an offer can do (R174): the kind is masked, or the notice joins the queue, or it is dropped. -/
theorem State.offer_cases (s : State) (p : Port) (n : Notice) :
    (n.kind ∉ (s.port p).mask ∧ s.offer p n = (s, false)) ∨
    (n.kind ∈ (s.port p).mask ∧ (s.port p).queue.length < 16 ∧
      s.offer p n = (s.setPort p { s.port p with queue := (s.port p).queue ++ [n] }, false)) ∨
    (n.kind ∈ (s.port p).mask ∧ 16 ≤ (s.port p).queue.length ∧
      s.offer p n = (s.setPort p { s.port p with lost := true }, true)) := by
  unfold State.offer
  by_cases h : n.kind ∈ (s.port p).mask
  · by_cases k : (s.port p).queue.length < 16
    · exact .inr (.inl ⟨h, k, by simp [h, k]⟩)
    · exact .inr (.inr ⟨h, by omega, by simp [h, k]⟩)
  · exact .inl ⟨h, by simp [h]⟩

/-- A fault that goes straight into the capture touches the ports and the capture alone. -/
theorem State.raiseNow_reports (s : State) (f : FaultKind) (c : Nat) : s.Reports (s.raiseNow f c) := by
  unfold State.raiseNow
  generalize s.faults.take f c s.session.clock = x
  obtain ⟨cap, latched⟩ := x
  have h : s.Reports { s with faults := cap } := rfl
  dsimp only
  split
  · have k := ({ s with faults := cap } : State).offer_reports .operator
      ⟨.faultRaised, s.session.clock, [f.code, f.classCode, c, 0]⟩
    revert k
    generalize State.offer _ _ _ = y
    obtain ⟨u, dropped⟩ := y
    intro k
    dsimp only at k ⊢
    split
    · exact (h.trans k).trans rfl
    · exact h.trans k
  · exact h

/-- A fault raise touches the ports and the capture alone, held or not (R186). -/
theorem State.raiseFault_reports (s : State) (f : FaultKind) (c : Nat) : s.Reports (s.raiseFault f c) := by
  unfold State.raiseFault
  split
  · rfl
  · exact s.raiseNow_reports f c

theorem State.offerAll_reports (ports : List Port) (s : State) (n : Notice) : s.Reports (s.offerAll ports n).1 := by
  induction ports generalizing s with
  | nil => exact .refl s
  | cons p rest ih =>
    have h := s.offer_reports p n
    have k := ih (s.offer p n).1
    unfold State.offerAll
    revert h k
    generalize s.offer p n = x
    obtain ⟨u, d⟩ := x
    intro h k
    exact h.trans k

theorem State.raiseOverflows_reports (dropped : List Port) (s : State) : s.Reports (s.raiseOverflows dropped) := by
  unfold State.raiseOverflows
  induction dropped generalizing s with
  | nil => exact .refl s
  | cons p rest ih => exact (s.raiseFault_reports _ _).trans (ih _)

/-- A notice touches the ports and the capture alone (R173, R174). -/
theorem State.notify_reports (s : State) (k : NoticeKind) (a b c d : Nat) : s.Reports (s.notify k a b c d) := by
  unfold State.notify
  have h := State.offerAll_reports k.ports s ⟨k, s.session.clock, [a, b, c, d]⟩
  revert h
  generalize State.offerAll _ _ _ = x
  obtain ⟨u, l⟩ := x
  intro h
  exact h.trans (State.raiseOverflows_reports l u)

theorem State.foldl_reports {α : Type} (f : State → α → State) (h : ∀ (s : State) (a : α), s.Reports (f s a)) (l : List α) (s : State) :
    s.Reports (l.foldl f s) := by
  induction l generalizing s with
  | nil => exact .refl s
  | cons a rest ih => exact (h s a).trans (ih _)

/-! ### The passes -/

theorem State.relayNotices_reports (s : State) (x y : Table Desk 72) : s.Reports (s.relayNotices x y) := by
  unfold State.relayNotices
  refine State.foldl_reports _ (fun s i => ?_) _ _
  unfold State.relayNotice
  split <;> first | exact .refl s | exact s.notify_reports _ _ _ _ _

/-- The derivation pass touches the program records, the desks, the link, the ports and the capture alone (R45). -/
theorem State.derivationPass_frame (s : State) :
    s.derivationPass =
      { s with
        programs := s.derivationPass.programs
        booth := { s.booth with desks := s.derivationPass.booth.desks }
        link := s.derivationPass.link
        ports := s.derivationPass.ports
        faults := s.derivationPass.faults } := by
  have h := State.relayNotices_reports
  unfold State.Reports at h
  unfold State.derivationPass
  dsimp only
  rw [h]
  rfl

/-- The programs that a derivation pass leaves: the derived source follows the live desk and the level is the pass's
(R45 to R48). -/
theorem State.derivationPass_programs (s : State) :
    s.derivationPass.programs = s.programs.mapIdx fun p r =>
      { r with derivedSource := r.liveDesk, level := (resolve (.ofFn s.hearing)).level p } := by
  have h := State.relayNotices_reports
  unfold State.Reports at h
  unfold State.derivationPass
  dsimp only
  rw [h]
  rfl

/-- The desks that a derivation pass leaves (R46 to R49). -/
theorem State.derivationPass_desks (s : State) :
    s.derivationPass.booth.desks = s.booth.desks.mapIdx fun i r =>
      ({ s with programs := s.derivationPass.programs } : State).passDesk (resolve (.ofFn s.hearing)) (deskAt i) r := by
  have h := State.relayNotices_reports
  unfold State.Reports at h
  rw [State.derivationPass_programs]
  unfold State.derivationPass
  dsimp only
  rw [h]
  dsimp only [State.updateLink_booth]
  congr 1
  funext i r
  unfold State.passDesk State.passRelay State.deskProgram State.desk State.boothConfig State.program
  simp

theorem State.passNotices_reports (s : State) (x y : Table Program 32) (b : Nat) : s.Reports (s.passNotices x y b) := by
  unfold State.passNotices
  refine State.foldl_reports _ (fun s i => ?_) _ _
  unfold State.passNotice
  dsimp only
  split
  · split
    · exact (s.notify_reports _ _ _ _ _).trans (State.notify_reports _ _ _ _ _ _)
    · exact s.notify_reports _ _ _ _ _
  · split
    · exact s.notify_reports _ _ _ _ _
    · exact .refl s

/-- What an allocation pass leaves, but for the link, the ports and the capture (R73 to R77). -/
theorem State.allocationPass_frame (s : State) :
    s.allocationPass =
      { s with
        programs := s.programs.mapIdx (passProgram (allocate s.programs s.budget))
        planner := { s.planner with
          slotsInUse := (allocate s.programs s.budget).total
          lastPass := s.allocationPass.planner.lastPass }
        link := s.allocationPass.link
        ports := s.allocationPass.ports
        faults := s.allocationPass.faults } := by
  have h := State.passNotices_reports
  have k := State.raiseFault_reports
  unfold State.Reports at h k
  unfold State.allocationPass
  dsimp only
  split
  · rw [k, h]
    rfl
  · rw [h]
    rfl

/-! ### The handling of a request -/

/-- A request brought to an empty slot: taken, and handled when it passes the port's checks (R167, R169). -/
theorem State.serve_ready (s : State) (p : Port) (code : Byte) (params : List Byte) (body : State → Reply)
    (hp : s.powered = true) (hr : s.resetAsserted = false) (hq : (s.port p).request = none)
    (hl : params.length ≤ 250) :
    s.serve p code params body =
      if (s.portCheck p code params).isSome then s.takeRequest p code params
      else (s.takeRequest p code params).handle p code body := by
  simp [State.serve, State.operating, hp, hr, hq, hl]

/-- A request that waits is handled by its row (R167). -/
theorem State.serve_waiting (s : State) (p : Port) (code : Byte) (params : List Byte) (body : State → Reply) (n : Nat)
    (ho : s.operating = true) (hq : (s.port p).request = some ⟨code, params, n⟩) :
    s.serve p code params body = s.handle p code body := by
  simp [State.serve, ho, hq]

/-- While RESET_N is asserted or main power is off no request is taken (R188). -/
theorem State.serve_off (s : State) (p : Port) (code : Byte) (params : List Byte) (body : State → Reply)
    (h : s.operating = false) : s.serve p code params body = s := by
  simp [State.serve, h]

/-- The frame of a request is opened: with no self-reset waiting, the answer slot alone is emptied (R167). -/
theorem State.openRequest_plain (s : State) (p : Port) (h : p = .operator → s.ports.selfReset = false) :
    s.openRequest p = (s.shiftOut p [s.statusByte p]).setPort p { s.port p with answer := none } := by
  unfold State.openRequest State.takeSelfReset
  have k : ¬ (p = .operator ∧ (s.shiftOut p [s.statusByte p]).ports.selfReset = true) := by
    rintro ⟨hp, ha⟩
    rw [State.shiftOut_selfReset, h hp] at ha
    exact Bool.noConfusion ha
  rw [if_neg k]
  simp

/-- With start-up over, the port's checks are the command code, the port and the parameter length (R169). -/
theorem State.portCheck_done (s : State) (p : Port) (code : Byte) (params : List Byte) (h : s.startup = .done) :
    s.portCheck p code params =
      if (commandAccess code).isNone then some .unknownCommand
      else if !acceptedOn code p then some .wrongPort
      else if !paramsFit code params then some .malformed
      else none := by
  simp [State.portCheck, State.starting, h]

/-- An accepted request of a fitting length passes every check once start-up is over (R169). -/
theorem State.portCheck_none (s : State) (p : Port) (code : Byte) (params : List Byte) (h : s.startup = .done)
    (ha : acceptedOn code p = true) (hf : paramsFit code params = true) : s.portCheck p code params = none := by
  have k : (commandAccess code).isNone = false := by
    unfold acceptedOn at ha
    cases x : commandAccess code with
    | none => rw [x] at ha; exact absurd ha (by simp)
    | some _ => rfl
  simp [State.portCheck_done s p code params h, k, ha, hf]

/-- The state that a taken request leaves for its handling, block by block. -/
@[simp] theorem State.taken_port (s : State) (p : Port) (code : Byte) (params : List Byte) :
    (s.taken p code params).port p = { s.port p with request := some ⟨code, params, s.nextTurn⟩, answer := none } := by
  simp [State.taken]

theorem State.taken_reports (s : State) (p : Port) (code : Byte) (params : List Byte) :
    s.taken p code params = { s with ports := (s.taken p code params).ports } := by
  cases p <;> rfl

/-- An answer placed over the state that a taken request leaves is `State.answered`. -/
theorem State.taken_placeAnswer (s : State) (p : Port) (code c : Byte) (params : List Byte) (r : Result)
    (fields : List Byte) : (s.taken p code params).placeAnswer p c r fields = s.answered p c r fields := by
  cases p <;> rfl

/-- The frame opened and its request placed, with no self-reset waiting. -/
theorem State.placeRequest_plain (s : State) (p : Port) (code : Byte) (params : List Byte)
    (h : p = .operator → s.ports.selfReset = false) :
    (s.openRequest p).placeRequest p code params = s.taken p code params := by
  rw [State.openRequest_plain s p h]
  cases p <;> rfl

/-- What the taking of a whole frame leaves, with no self-reset waiting: the request in its slot, or the answer of the
check that decides (R167, R169). -/
theorem State.takeRequest_plain (s : State) (p : Port) (code : Byte) (params : List Byte)
    (h : p = .operator → s.ports.selfReset = false) :
    s.takeRequest p code params =
      match s.portCheck p code params with
      | some r => s.answered p code r []
      | none => s.taken p code params := by
  unfold State.takeRequest
  dsimp only
  rw [State.placeRequest_plain s p code params h]
  cases s.portCheck p code params with
  | none => rfl
  | some r => exact State.taken_placeAnswer s p code code params r []

/-- A command that a check of its port refuses: the refusal in the answer slot, and nothing else (R169). -/
theorem State.serve_refused (s : State) (p : Port) (code : Byte) (params : List Byte) (body : State → Reply) (r : Result)
    (hp : s.powered = true) (hr : s.resetAsserted = false) (hq : (s.port p).request = none)
    (hs : p = .operator → s.ports.selfReset = false) (hl : params.length ≤ 250) (hc : s.portCheck p code params = some r) :
    s.serve p code params body = s.answered p code r [] := by
  rw [State.serve_ready s p code params body hp hr hq hl, State.takeRequest_plain s p code params hs, hc]
  rfl

/-- Everything a command does on a port that can take it and whose checks it passes: its body runs on the state with the
request in its slot, and its answer takes the request's place (R167, R169). -/
theorem State.serve_done (s : State) (p : Port) (code : Byte) (params : List Byte) (body : State → Reply)
    (h : s.canTake p) (hl : params.length ≤ 250) (ha : acceptedOn code p = true) (hf : paramsFit code params = true) :
    s.serve p code params body =
      (body (s.taken p code params)).state.placeAnswer p code (body (s.taken p code params)).result
        (body (s.taken p code params)).fields := by
  obtain ⟨hp, hr, hd, hq, hs⟩ := h
  rw [State.serve_ready s p code params body hp hr hq hl, State.takeRequest_plain s p code params hs,
    State.portCheck_none s p code params hd ha hf]
  rfl

/-- Parameters that are not read are answered MALFORMED, by the port or by the block, and nothing else changes (R169). -/
theorem State.serve_malformed {α : Type} (s : State) (p : Port) (code : Byte) (params : List Byte) (f : α → State → Reply)
    (h : s.canTake p) (hl : params.length ≤ 250) (ha : acceptedOn code p = true) :
    s.serve p code params (withParams none f) = s.answered p code .malformed [] := by
  cases hf : paramsFit code params with
  | true =>
    rw [State.serve_done s p code params _ h hl ha hf]
    exact State.taken_placeAnswer s p code code params .malformed []
  | false =>
    obtain ⟨hp, hr, hd, hq, hs⟩ := h
    refine State.serve_refused s p code params _ .malformed hp hr hq hs hl ?_
    have k : (commandAccess code).isNone = false := by
      unfold acceptedOn at ha
      cases x : commandAccess code with
      | none => rw [x] at ha; exact absurd ha (by simp)
      | some _ => rfl
    simp [State.portCheck_done s p code params hd, k, ha, hf]

end Sys2Proof.Machine
end

