-- ==== Sys2Proof/Laws/Blocks.lean ====
section
/-! SUPPORT. The handling of a request apart from its effect: a notice, a fault raise and a pass neither read nor write
the request and answer slots, so the answer may be placed before them or after; and every block but the ports
reads the same with a request in its slot. -/

namespace Sys2Proof.Machine

/-! ### A taken request is seen by no other block -/

@[simp] theorem State.taken_desk (s : State) (p : Port) (c : Byte) (l : List Byte) (d : DeskId) :
    (s.taken p c l).desk d = s.desk d := by cases p <;> rfl
@[simp] theorem State.taken_boothConfig (s : State) (p : Port) (c : Byte) (l : List Byte) (b : Fin 24) :
    (s.taken p c l).boothConfig b = s.boothConfig b := by cases p <;> rfl
@[simp] theorem State.taken_request (s : State) (p : Port) (c : Byte) (l : List Byte) (b : Fin 24) :
    (s.taken p c l).request b = s.request b := by cases p <;> rfl
@[simp] theorem State.taken_interpreter (s : State) (p : Port) (c : Byte) (l : List Byte) (n : Nat) :
    (s.taken p c l).interpreter n = s.interpreter n := by cases p <;> rfl
@[simp] theorem State.taken_program (s : State) (p : Port) (c : Byte) (l : List Byte) (q : Prog) :
    (s.taken p c l).program q = s.program q := by cases p <;> rfl
@[simp] theorem State.taken_receiver (s : State) (p : Port) (c : Byte) (l : List Byte) (n : Nat) :
    (s.taken p c l).receiver n = s.receiver n := by cases p <;> rfl
@[simp] theorem State.taken_hire (s : State) (p : Port) (c : Byte) (l : List Byte) (n : Nat) :
    (s.taken p c l).hire n = s.hire n := by cases p <;> rfl
@[simp] theorem State.taken_tariff (s : State) (p : Port) (c : Byte) (l : List Byte) (k : Fin 8) :
    (s.taken p c l).tariff k = s.tariff k := by cases p <;> rfl
@[simp] theorem State.taken_budget (s : State) (p : Port) (c : Byte) (l : List Byte) :
    (s.taken p c l).budget = s.budget := by cases p <;> rfl
@[simp] theorem State.taken_booth (s : State) (p : Port) (c : Byte) (l : List Byte) :
    (s.taken p c l).booth = s.booth := by cases p <;> rfl
@[simp] theorem State.taken_programs (s : State) (p : Port) (c : Byte) (l : List Byte) :
    (s.taken p c l).programs = s.programs := by cases p <;> rfl
@[simp] theorem State.taken_planner (s : State) (p : Port) (c : Byte) (l : List Byte) :
    (s.taken p c l).planner = s.planner := by cases p <;> rfl
@[simp] theorem State.taken_link (s : State) (p : Port) (c : Byte) (l : List Byte) :
    (s.taken p c l).link = s.link := by cases p <;> rfl
@[simp] theorem State.taken_registry (s : State) (p : Port) (c : Byte) (l : List Byte) :
    (s.taken p c l).registry = s.registry := by cases p <;> rfl
@[simp] theorem State.taken_hires (s : State) (p : Port) (c : Byte) (l : List Byte) :
    (s.taken p c l).hires = s.hires := by cases p <;> rfl
@[simp] theorem State.taken_settlement (s : State) (p : Port) (c : Byte) (l : List Byte) :
    (s.taken p c l).settlement = s.settlement := by cases p <;> rfl
@[simp] theorem State.taken_session (s : State) (p : Port) (c : Byte) (l : List Byte) :
    (s.taken p c l).session = s.session := by cases p <;> rfl
@[simp] theorem State.taken_faults (s : State) (p : Port) (c : Byte) (l : List Byte) :
    (s.taken p c l).faults = s.faults := by cases p <;> rfl
@[simp] theorem State.taken_now (s : State) (p : Port) (c : Byte) (l : List Byte) :
    (s.taken p c l).now = s.now := by cases p <;> rfl

/-! ### Operations that commute with the placing of an answer -/

/-- An update that neither reads nor writes the request and answer slots of port `p`. -/
def State.Apart (f : State → State) : Prop :=
  ∀ (s : State) (p : Port) (c : Byte) (r : Result) (l : List Byte),
    f (s.placeAnswer p c r l) = (f s).placeAnswer p c r l

theorem State.Apart.comp {f g : State → State} (hf : State.Apart f) (hg : State.Apart g) :
    State.Apart fun s => f (g s) := fun s p c r l =>
  (congrArg f (hg s p c r l)).trans (hf (g s) p c r l)

theorem State.offer_placeAnswer (s : State) (p q : Port) (c : Byte) (r : Result) (l : List Byte) (n : Notice) :
    (s.placeAnswer p c r l).offer q n = ((s.offer q n).1.placeAnswer p c r l, (s.offer q n).2) := by
  have hm : ((s.placeAnswer p c r l).port q).mask = (s.port q).mask := by cases p <;> cases q <;> rfl
  have hq : ((s.placeAnswer p c r l).port q).queue = (s.port q).queue := by cases p <;> cases q <;> rfl
  rcases s.offer_cases q n with ⟨h, e⟩ | ⟨h, k, e⟩ | ⟨h, k, e⟩ <;> rw [e] <;> unfold State.offer <;>
    dsimp only <;> rw [hm, hq]
  · rw [if_pos h]
  · rw [if_neg (by simpa using h), if_pos k]
    cases p <;> cases q <;> rfl
  · rw [if_neg (by simpa using h), if_neg (by omega)]
    cases p <;> cases q <;> rfl

/-- The capture set. -/
def State.withFaults (s : State) (c : FaultCapture) : State := { s with faults := c }

/-- The FAULT_RAISED notice of a raise (R183). -/
def raisedNotice (f : FaultKind) (n : Nat) (time : HallTime) : Notice :=
  ⟨.faultRaised, time, [f.code, f.classCode, n, 0]⟩

/-- What follows the flags of a raise: the FAULT_RAISED notice, and the overflow that its own drop raises. -/
theorem State.raiseNow_eq (s : State) (f : FaultKind) (n : Nat) :
    s.raiseNow f n =
      (fun (x : FaultCapture × Bool) =>
        if x.2 then
          (fun (y : State × Bool) =>
            if y.2 then y.1.withFaults (x.1.take .noticeOverflow 3 s.session.clock).1 else y.1)
          ((s.withFaults x.1).offer .operator (raisedNotice f n s.session.clock))
        else s.withFaults x.1)
      (s.faults.take f n s.session.clock) := by
  unfold State.raiseNow
  generalize s.faults.take f n s.session.clock = x
  obtain ⟨cap, latched⟩ := x
  have k := (s.withFaults cap).offer_cases .operator (raisedNotice f n s.session.clock)
  unfold State.withFaults raisedNotice at k ⊢
  dsimp only
  rcases k with ⟨-, e⟩ | ⟨-, -, e⟩ | ⟨-, -, e⟩ <;> rw [e] <;> rfl

theorem State.withFaults_placeAnswer (cap : FaultCapture) : State.Apart fun s => s.withFaults cap := by
  intro s p c r l
  cases p <;> rfl

theorem State.raiseNow_placeAnswer (f : FaultKind) (n : Nat) : State.Apart fun s => s.raiseNow f n := by
  intro s p c r l
  have e : (s.placeAnswer p c r l).faults = s.faults := by cases p <;> rfl
  have e' : (s.placeAnswer p c r l).session = s.session := by cases p <;> rfl
  dsimp only
  rw [State.raiseNow_eq, State.raiseNow_eq, e, e']
  generalize s.faults.take f n s.session.clock = x
  obtain ⟨cap, latched⟩ := x
  dsimp only
  rw [show (s.placeAnswer p c r l).withFaults cap = (s.withFaults cap).placeAnswer p c r l from
    State.withFaults_placeAnswer cap s p c r l, State.offer_placeAnswer]
  generalize State.offer _ _ _ = y
  obtain ⟨u, d⟩ := y
  cases latched
  · rfl
  · cases d
    · rfl
    · exact State.withFaults_placeAnswer _ u p c r l

theorem State.raiseFault_placeAnswer (f : FaultKind) (n : Nat) : State.Apart fun s => s.raiseFault f n := by
  intro s p c r l
  have e : (s.placeAnswer p c r l).starting = s.starting := by cases p <;> rfl
  dsimp only
  unfold State.raiseFault
  rw [e]
  split
  · cases p <;> rfl
  · exact State.raiseNow_placeAnswer f n s p c r l

theorem State.offerAll_placeAnswer (ports : List Port) (s : State) (p : Port) (c : Byte) (r : Result)
    (l : List Byte) (n : Notice) :
    (s.placeAnswer p c r l).offerAll ports n =
      ((s.offerAll ports n).1.placeAnswer p c r l, (s.offerAll ports n).2) := by
  induction ports generalizing s with
  | nil => rfl
  | cons q rest ih =>
    unfold State.offerAll
    rw [State.offer_placeAnswer]
    generalize s.offer q n = x
    obtain ⟨u, d⟩ := x
    dsimp only
    rw [ih]

theorem State.foldl_apart {α : Type} (f : State → α → State) (h : ∀ a, State.Apart fun s => f s a) (l : List α) :
    State.Apart fun s => l.foldl f s := by
  intro s p c r bs
  induction l generalizing s with
  | nil => rfl
  | cons a rest ih =>
    dsimp only [List.foldl] at ih ⊢
    rw [show f (s.placeAnswer p c r bs) a = (f s a).placeAnswer p c r bs from h a s p c r bs]
    exact ih _

/-! The writes of the tables read and write their own block alone. -/

theorem State.Apart.id : State.Apart fun s => s := fun _ _ _ _ _ => rfl
theorem State.rewrite_apart (g : Fin 10) : State.Apart fun s => s.rewrite g := by
  intro s p c r l; cases p <;> rfl
theorem State.modifyDesk_apart (d : DeskId) (f : Desk → Desk) : State.Apart fun s => s.modifyDesk d f := by
  intro s p c r l; cases p <;> rfl
theorem State.setBoothConfig_apart (b : Fin 24) (k : BoothConfig) : State.Apart fun s => s.setBoothConfig b k := by
  intro s p c r l; cases p <;> rfl
theorem State.setRequest_apart (b : Fin 24) (x : Option HandoverRequest) : State.Apart fun s => s.setRequest b x := by
  intro s p c r l; cases p <;> rfl
theorem State.setInterpreters_apart (x : List Interpreter) : State.Apart fun s => s.setInterpreters x := by
  intro s p c r l; cases p <;> rfl
theorem State.modifyInterpreter_apart (n : Nat) (f : Interpreter → Interpreter) : State.Apart fun s => s.modifyInterpreter n f := by
  intro s p c r l; cases p <;> rfl
theorem State.modifyProgram_apart (q : Prog) (f : Program → Program) : State.Apart fun s => s.modifyProgram q f := by
  intro s p c r l; cases p <;> rfl
theorem State.writePrograms_apart (f : Prog → Program → Program) : State.Apart fun s => s.writePrograms f := by
  intro s p c r l; cases p <;> rfl
theorem State.setProgConfig_apart (q : Prog) (k : ProgConfig) : State.Apart fun s => s.setProgConfig q k := by
  intro s p c r l; cases p <;> rfl
theorem State.setReceivers_apart (x : List Receiver) : State.Apart fun s => s.setReceivers x := by
  intro s p c r l; cases p <;> rfl
theorem State.modifyReceiver_apart (n : Nat) (f : Receiver → Receiver) : State.Apart fun s => s.modifyReceiver n f := by
  intro s p c r l; cases p <;> rfl
theorem State.setSlot_apart (k : Fin 512) (v : Option Nat) : State.Apart fun s => s.setSlot k v := by
  intro s p c r l; cases p <;> rfl
theorem State.setStocktake_apart (k : Stocktake) : State.Apart fun s => s.setStocktake k := by
  intro s p c r l; cases p <;> rfl
theorem State.setHires_apart (x : List Hire) : State.Apart fun s => s.setHires x := by
  intro s p c r l; cases p <;> rfl
theorem State.setHireCounter_apart (n : Nat) : State.Apart fun s => s.setHireCounter n := by
  intro s p c r l; cases p <;> rfl
theorem State.modifyHire_apart (n : Nat) (f : Hire → Hire) : State.Apart fun s => s.modifyHire n f := by
  intro s p c r l; cases p <;> rfl
theorem State.setQueue_apart (x : List Settled) : State.Apart fun s => s.setQueue x := by
  intro s p c r l; cases p <;> rfl
theorem State.setTariff_apart (k : Fin 8) (t : Tariff) : State.Apart fun s => s.setTariff k t := by
  intro s p c r l; cases p <;> rfl
theorem State.setClock_apart (t : HallTime) (v : Bool) : State.Apart fun s => s.setClock t v := by
  intro s p c r l; cases p <;> rfl
theorem State.restartTickWatch_apart : State.Apart fun s => s.restartTickWatch := by
  intro s p c r l; cases p <;> rfl
theorem State.setSession_apart (x : Session) : State.Apart fun s => s.setSession x := by
  intro s p c r l; cases p <;> rfl
theorem State.modifyCounters_apart (f : DayCounters → DayCounters) : State.Apart fun s => s.modifyCounters f := by
  intro s p c r l; cases p <;> rfl
theorem State.setHold_apart (h : Option Shadow) : State.Apart fun s => s.setHold h := by
  intro s p c r l; cases p <;> rfl
theorem State.updateLink_apart (f : Link → Link) : State.Apart fun s => s.updateLink f := by
  intro s p c r l; cases p <;> rfl

/-- A notice may be queued before the answer is placed or after it. -/
theorem State.notify_placeAnswer (k : NoticeKind) (x y z w : Nat) : State.Apart fun s => s.notify k x y z w := by
  intro s p c r l
  have e : (s.placeAnswer p c r l).session = s.session := by cases p <;> rfl
  dsimp only
  unfold State.notify
  rw [e, State.offerAll_placeAnswer]
  generalize State.offerAll _ _ _ = u
  obtain ⟨u, d⟩ := u
  exact State.foldl_apart _ (fun a => State.raiseFault_placeAnswer _ _) d u p c r l

/-- The derivation pass may run before the answer is placed or after it. -/
theorem State.derivationPass_placeAnswer : State.Apart State.derivationPass := by
  intro s p c r l
  have h : ∀ (x y : Table Desk 72), State.Apart fun s => s.relayNotices x y := by
    intro x y
    unfold State.relayNotices
    refine State.foldl_apart _ (fun i => ?_) _
    intro s p c r l
    unfold State.relayNotice
    dsimp only
    split
    · exact State.notify_placeAnswer _ _ _ _ _ s p c r l
    · exact State.notify_placeAnswer _ _ _ _ _ s p c r l
    · rfl
    · rfl
  unfold State.derivationPass
  dsimp only
  rw [← h]
  cases p <;> rfl

/-- The allocation pass may run before the answer is placed or after it. -/
theorem State.allocationPass_placeAnswer : State.Apart State.allocationPass := by
  intro s p c r l
  have h : ∀ (x y : Table Program 32) (b : Nat), State.Apart fun s => s.passNotices x y b := by
    intro x y b
    unfold State.passNotices
    refine State.foldl_apart _ (fun i => ?_) _
    intro s p c r l
    unfold State.passNotice
    dsimp only
    split
    · rw [show (s.placeAnswer p c r l).notify _ _ _ _ _ = _ from State.notify_placeAnswer _ _ _ _ _ s p c r l]
      split
      · exact State.notify_placeAnswer _ _ _ _ _ _ p c r l
      · rfl
    · split
      · exact State.notify_placeAnswer _ _ _ _ _ s p c r l
      · rfl
  unfold State.allocationPass
  dsimp only
  have e : (s.placeAnswer p c r l).budget = s.budget := by cases p <;> rfl
  have e2 : (s.placeAnswer p c r l).programs = s.programs := by cases p <;> rfl
  have e3 : (s.placeAnswer p c r l).planner = s.planner := by cases p <;> rfl
  rw [e, e2, e3]
  split
  · rw [← State.raiseFault_placeAnswer, ← h]
    cases p <;> rfl
  · rw [← h]
    cases p <;> rfl

end Sys2Proof.Machine
end

