-- ==== Sys2Proof/Laws/Bytes.lean ====
section
/-! SUPPORT. Numbers and names written as bytes are read back as they were (R170), and a command whose parameters are read is
its body's effect under the answer. -/

namespace Sys2Proof.Machine

/-! ### Numbers -/

theorem be_one (n : Nat) : be 1 n = [BitVec.ofNat 8 n] := rfl
theorem be_two (n : Nat) : be 2 n = [BitVec.ofNat 8 (n / 256), BitVec.ofNat 8 n] := rfl
theorem be_three (n : Nat) :
    be 3 n = [BitVec.ofNat 8 (n / 256 / 256), BitVec.ofNat 8 (n / 256), BitVec.ofNat 8 n] := rfl
theorem be_four (n : Nat) :
    be 4 n = [BitVec.ofNat 8 (n / 256 / 256 / 256), BitVec.ofNat 8 (n / 256 / 256), BitVec.ofNat 8 (n / 256),
      BitVec.ofNat 8 n] := rfl

theorem byte_ofNat {n : Nat} (h : n < 256) : (BitVec.ofNat 8 n).toNat = n := by
  rw [BitVec.toNat_ofNat]; exact Nat.mod_eq_of_lt h

/-- A number below 65536 in two bytes is read back. -/
theorem num_two {n : Nat} (h : n < 65536) : num [BitVec.ofNat 8 (n / 256), BitVec.ofNat 8 n] = n := by
  simp only [num, List.foldl, BitVec.toNat_ofNat]; omega

/-- A number below 2^24 in three bytes is read back. -/
theorem num_three {n : Nat} (h : n < 2 ^ 24) :
    num [BitVec.ofNat 8 (n / 256 / 256), BitVec.ofNat 8 (n / 256), BitVec.ofNat 8 n] = n := by
  simp only [num, List.foldl, BitVec.toNat_ofNat]; omega

/-! ### Identifiers and names -/

theorem index?_eq {lo n v : Nat} (i : Fin n) (h : v = lo + i.val) : index? lo n v = some i := by
  unfold index?
  have : lo ≤ v ∧ v - lo < n := by omega
  rw [dif_pos this]
  congr 1
  ext
  simp; omega

theorem index?_none {lo n v : Nat} (h : v < lo ∨ lo + n ≤ v) : index? lo n v = none := by
  unfold index?
  rw [dif_neg (by omega)]

theorem booth?_byte (b : Fin 24) : booth? (BitVec.ofNat 8 (b.val + 1)) = some b :=
  index?_eq b (by rw [byte_ofNat (by omega)]; omega)

theorem prog?_byte (p : Prog) : prog? (BitVec.ofNat 8 p.val) = some p :=
  index?_eq p (by rw [byte_ofNat (by omega)]; omega)

theorem desk?_bytes (d : DeskId) :
    desk? (BitVec.ofNat 8 (d.booth.val + 1)) (BitVec.ofNat 8 (d.pos.val + 1)) = some d := by
  unfold desk?
  rw [booth?_byte, index?_eq (n := 3) d.pos (by rw [byte_ofNat (by omega)]; omega)]

theorem deskBytes_eq (d : DeskId) :
    deskBytes d = [BitVec.ofNat 8 (d.booth.val + 1), BitVec.ofNat 8 (d.pos.val + 1)] := rfl

theorem output?_byte (o : Output) : output? (BitVec.ofNat 8 o.code) = some o := by cases o <;> rfl

theorem port?_byte (p : Port) : port? (BitVec.ofNat 8 (portCode p)) = some p := by cases p <;> rfl

theorem noticeKind?_byte (k : NoticeKind) : noticeKind? (BitVec.ofNat 8 k.code) = some k := by cases k <;> rfl

theorem flagName?_byte (f : FlagName) : flagName? (BitVec.ofNat 8 f.code) = some f := by cases f <;> rfl

theorem positive?_pos {n : Nat} (h : 1 ≤ n) : positive? n = some n := by
  unfold positive?; rw [if_neg (by omega)]

theorem hire?_some {n : Nat} (h : 1 ≤ n) (k : n ≤ 9999) : hire? n = some n := by
  unfold hire?; rw [if_pos ⟨h, k⟩]

theorem badge?_some {n : Nat} (h : 1 ≤ n) (k : n ≤ 999999) : badge? n = some n := by
  unfold badge?; rw [if_pos ⟨h, k⟩]

theorem badge?_none {n : Nat} (h : n = 0 ∨ 999999 < n) : badge? n = none := by
  unfold badge?; rw [if_neg (by omega)]

/-- An optional program is read back, with the bytes after it left over. -/
theorem takeOptional_prog (p : Option Prog) (rest : List Byte) :
    takeOptional (optProgBytes p ++ rest) = some (p.map fun x => BitVec.ofNat 8 x.val, rest) := by
  cases p <;> rfl

theorem optProg?_prog (p : Option Prog) : optProg? 0 (p.map fun x => BitVec.ofNat 8 x.val) = some p := by
  cases p with
  | none => rfl
  | some x => simp [optProg?, prog?_byte]

theorem optProg?_output {p : Option Prog} (h : p ≠ some 0) :
    optProg? 1 (p.map fun x => BitVec.ofNat 8 x.val) = some p := by
  cases p with
  | none => rfl
  | some x =>
    have k : x.val ≠ 0 := fun e => h (by rw [show x = 0 from Fin.ext e])
    simp only [Option.map_some, optProg?, byte_ofNat (show x.val < 256 by omega), prog?_byte]
    rw [if_pos (by omega)]

/-! ### Lists -/

theorem pairs?_words {l : List Nat} (h : ∀ n ∈ l, n < 65536) : pairs? (l.flatMap (be 2)) = some l := by
  induction l with
  | nil => rfl
  | cons n rest ih =>
    rw [List.flatMap_cons, be_two]
    show (pairs? (rest.flatMap (be 2))).map (num [BitVec.ofNat 8 (n / 256), BitVec.ofNat 8 n] :: ·) = _
    rw [ih fun m hm => h m (List.mem_cons_of_mem _ hm), num_two (h n (List.mem_cons_self ..))]
    rfl

/-- A list of receiver numbers is read back. -/
theorem wordList?_receivers {l : List Nat} (h : ∀ n ∈ l, n < 65536) (k : l.length < 256) :
    wordList? (receiverList l) = some l := by
  show (match pairs? (l.flatMap (be 2)) with
    | none => none
    | some ws => if ws.length = (BitVec.ofNat 8 l.length).toNat then some ws else none) = _
  rw [pairs?_words h, byte_ofNat k]
  simp

theorem readAll?_map {α : Type} (f : Byte → Option α) (g : α → Byte) (l : List α) (h : ∀ a ∈ l, f (g a) = some a) :
    readAll? f (l.map g) = some l := by
  induction l with
  | nil => rfl
  | cons a rest ih =>
    unfold readAll?
    rw [List.map_cons]
    dsimp only
    rw [h a (List.mem_cons_self ..), ih fun b hb => h b (List.mem_cons_of_mem _ hb)]

theorem byteList?_map {α : Type} (g : α → Byte) (l : List α) (h : l.length < 256) :
    byteList? (be 1 l.length ++ l.map g) = some (l.map g) := by
  unfold byteList?
  rw [be_one]
  show (if (l.map g).length = (BitVec.ofNat 8 l.length).toNat then some (l.map g) else none) = _
  rw [byte_ofNat h]; simp

/-! ### Lengths that fit (R169 check 4) -/

/-- A list of receiver numbers has the length that its count declares. -/
theorem listFits_receivers {l : List Nat} {hi : Nat} (h : 1 ≤ l.length) (k : l.length ≤ hi) (b : hi < 256) :
    listFits 2 1 hi (receiverList l) = true := by
  have e : (l.flatMap (be 2)).length = 2 * l.length := by
    clear h k
    induction l with
    | nil => rfl
    | cons a rest ih => rw [List.flatMap_cons, List.length_append, ih, List.length_cons]; simp [be]; omega
  show ((l.flatMap (be 2)).length == 2 * (BitVec.ofNat 8 l.length).toNat &&
    decide (1 ≤ (BitVec.ofNat 8 l.length).toNat ∧ (BitVec.ofNat 8 l.length).toNat ≤ hi)) = true
  rw [e, byte_ofNat (by omega)]
  simp [h, k]

/-- A list of one-byte entries has the length that its count declares. -/
theorem listFits_bytes {l : List Byte} {hi : Nat} (k : l.length ≤ hi) (b : hi < 256) :
    listFits 1 0 hi (be 1 l.length ++ l) = true := by
  show (l.length == 1 * (BitVec.ofNat 8 l.length).toNat &&
    decide (0 ≤ (BitVec.ofNat 8 l.length).toNat ∧ (BitVec.ofNat 8 l.length).toNat ≤ hi)) = true
  rw [byte_ofNat (by omega)]
  simp [k]

/-- The optional byte at the front, and what is left over (R170). -/
theorem takeOptional_eq_some (bs : List Byte) (v : Option Byte) (l : List Byte) :
    takeOptional bs = some (v, l) ↔
      ∃ o, bs = o ++ l ∧ ((o = [0x00#8] ∧ v = none) ∨ ∃ x, o = [0x01#8, x] ∧ v = some x) := by
  unfold takeOptional
  rcases bs with _ | ⟨f, rest⟩
  · simp
  · dsimp only
    by_cases h0 : f.toNat = 0
    · have : f = 0x00#8 := BitVec.eq_of_toNat_eq h0
      subst this
      simp
      constructor
      · rintro ⟨rfl, rfl⟩; exact ⟨[0#8], by simp⟩
      · rintro ⟨o, h, (⟨rfl, rfl⟩ | ⟨x, rfl, rfl⟩)⟩ <;> simp_all
    · rw [if_neg h0]
      have n0 : f ≠ 0x00#8 := fun e => h0 (by rw [e]; rfl)
      by_cases h1 : f.toNat = 1
      · have : f = 0x01#8 := BitVec.eq_of_toNat_eq h1
        subst this
        rcases rest with _ | ⟨x, rest⟩
        · rw [if_pos (by decide)]
          simp only [false_iff, reduceCtorEq]
          rintro ⟨o, h, (⟨rfl, -⟩ | ⟨x, rfl, -⟩)⟩ <;> simp at h
        · simp
          constructor
          · rintro ⟨rfl, rfl⟩; exact ⟨[1#8, x], by simp⟩
          · rintro ⟨o, h, (⟨rfl, rfl⟩ | ⟨x, rfl, rfl⟩)⟩ <;> simp_all
      · rw [if_neg h1]
        have n1 : f ≠ 0x01#8 := fun e => h1 (by rw [e]; rfl)
        simp
        rintro o h
        rcases o with _ | ⟨g, o⟩
        · simp
        · simp at h; obtain ⟨rfl, -⟩ := h; simp [n0, n1]

/-- An optional byte and then bytes that `f` takes. -/
theorem optionalThen_iff (f : List Byte → Bool) (bs : List Byte) :
    optionalThen f bs = true ↔ ∃ o l, bs = o ++ l ∧ OptionalByte o ∧ f l = true := by
  unfold optionalThen
  cases h : takeOptional bs with
  | none =>
    simp only [Bool.false_eq_true, false_iff]
    rintro ⟨o, l, rfl, ho, -⟩
    rcases ho with rfl | ⟨x, rfl⟩
    · have e := (takeOptional_eq_some ([0x00#8] ++ l) none l).mpr ⟨_, rfl, .inl ⟨rfl, rfl⟩⟩
      rw [h] at e; cases e
    · have e := (takeOptional_eq_some ([0x01#8, x] ++ l) (some x) l).mpr ⟨_, rfl, .inr ⟨x, rfl, rfl⟩⟩
      rw [h] at e; cases e
  | some y =>
    obtain ⟨v, l⟩ := y
    dsimp only
    constructor
    · intro k
      obtain ⟨o, e, ho⟩ := (takeOptional_eq_some _ _ _).mp h
      refine ⟨o, l, e, ?_, k⟩
      rcases ho with ⟨rfl, -⟩ | ⟨x, rfl, -⟩
      · exact .inl rfl
      · exact .inr ⟨x, rfl⟩
    · rintro ⟨o, m, rfl, ho, k⟩
      rcases ho with rfl | ⟨x, rfl⟩
      · have e := (takeOptional_eq_some ([0x00#8] ++ m) none m).mpr ⟨_, rfl, .inl ⟨rfl, rfl⟩⟩
        rw [h] at e; cases e; exact k
      · have e := (takeOptional_eq_some ([0x01#8, x] ++ m) (some x) m).mpr ⟨_, rfl, .inr ⟨x, rfl, rfl⟩⟩
        rw [h] at e; cases e; exact k

/-- An optional program and what fits after it. -/
theorem optionalThen_prog (p : Option Prog) (rest : List Byte) (f : List Byte → Bool) (h : f rest = true) :
    optionalThen f (optProgBytes p ++ rest) = true := by
  unfold optionalThen
  rw [takeOptional_prog]
  exact h

/-! ### A command and its answer -/

/-- A command that port `p` can take, whose body answers `r` with `fields` and does `f`: `f` under the answer. -/
theorem State.serve_apart (s : State) (p : Port) (code : Byte) (params : List Byte) (body : State → Reply)
    (f : State → State) (r : Result) (fields : List Byte) (h : s.canTake p) (hl : params.length ≤ 250)
    (ha : acceptedOn code p = true) (hn : paramsFit code params = true) (hf : State.Apart f)
    (hb : body (s.taken p code params) = ⟨f (s.taken p code params), r, fields⟩) :
    s.serve p code params body = f (s.answered p code r fields) := by
  rw [State.serve_done s p code params body h hl ha hn, hb]
  dsimp only
  rw [← hf, State.taken_placeAnswer]

/-- A command whose body answers without a change. -/
theorem State.serve_plain (s : State) (p : Port) (code : Byte) (params : List Byte) (body : State → Reply)
    (r : Result) (fields : List Byte) (h : s.canTake p) (hl : params.length ≤ 250)
    (ha : acceptedOn code p = true) (hn : paramsFit code params = true)
    (hb : body (s.taken p code params) = ⟨s.taken p code params, r, fields⟩) :
    s.serve p code params body = s.answered p code r fields :=
  State.serve_apart s p code params body (fun t => t) r fields h hl ha hn (fun _ _ _ _ _ => rfl) hb

/-- A command on a port that its code is not for is refused WRONG_PORT (R169). -/
theorem State.serve_wrongPort (s : State) (p : Port) (code : Byte) (params : List Byte) (body : State → Reply)
    (h : s.canTake p) (hl : params.length ≤ 250) (q : Port) (hq : commandAccess code = some (.only q)) (hp : q ≠ p) :
    s.serve p code params body = s.answered p code .wrongPort [] := by
  obtain ⟨h1, h2, h3, h4, h5⟩ := h
  refine State.serve_refused s p code params body .wrongPort h1 h2 h4 h5 hl ?_
  have k : (p == q) = false := by cases p <;> cases q <;> first | rfl | exact absurd rfl hp
  have a : acceptedOn code p = false := by unfold acceptedOn; rw [hq]; exact k
  rw [State.portCheck_done s p code params h3, hq, a]
  rfl

end Sys2Proof.Machine
end

