-- ==== Sys2Proof/Laws/PerInstr.lean ====
section
/-! SUPPORT. Per event, as syntax: the request that a well-formed command stands for fits a request frame. -/

namespace Sys2Proof.Laws.Frame

/-- A well-formed command's request frame is at most 252 bytes: code, length and 0 to 250 parameters (R178). An event
that is no command has no request. -/
def Statement (i : Instr) : Prop :=
  i.wellFormed = true → ∀ r ∈ requestOf i, r.2.2.length + 2 ≤ 252

theorem of_fits {p : Port} {code : Byte} {params : List Byte} {i : Instr} (h : requestOf i = some (p, code, params))
    (k : i.wellFormed = true → Instr.paramsFit params = true) : Statement i := by
  intro w r hr
  have f : params.length ≤ 250 := of_decide_eq_true (k w)
  rw [h] at hr
  cases hr
  exact Nat.add_le_add_right f 2

theorem of_none {i : Instr} (h : requestOf i = none) : Statement i := by
  intro _ r hr
  rw [h] at hr
  cases hr

theorem powerOn : Statement .powerOn := of_none rfl

theorem mainPowerLoss : Statement .mainPowerLoss := of_none rfl

theorem startupCheckComplete : Statement .startupCheckComplete := of_none rfl

theorem externalReset : Statement .externalReset := of_none rfl

theorem resetRelease : Statement .resetRelease := of_none rfl

theorem tick : Statement .tick := of_none rfl

theorem tickWatchExpiry : Statement .tickWatchExpiry := of_none rfl

theorem healthLineChange (lines : Fin 8) : Statement (.healthLineChange lines) := of_none rfl

theorem debounceExpiry : Statement .debounceExpiry := of_none rfl

theorem handoverExpiry (booth : Fin 24) : Statement (.handoverExpiry booth) := of_none rfl

theorem stocktakeExpiry : Statement .stocktakeExpiry := of_none rfl

theorem readyAssert : Statement .readyAssert := of_none rfl

theorem readyDeassert : Statement .readyDeassert := of_none rfl

theorem sendOpportunity : Statement .sendOpportunity := of_none rfl

theorem transmissionComplete : Statement .transmissionComplete := of_none rfl

theorem stallWatchExpiry : Statement .stallWatchExpiry := of_none rfl

theorem requestTransaction (p : Port) (frame : List Byte) : Statement (.requestTransaction p frame) := of_none rfl

theorem fetchAnswer (p : Port) : Statement (.fetchAnswer p) := of_none rfl

theorem statusOnly (p : Port) : Statement (.statusOnly p) := of_none rfl

theorem undefinedTransactionByte (p : Port) (byte : Byte) : Statement (.undefinedTransactionByte p byte) := of_none rfl

theorem unknownCommand (p : Port) (code : Byte) (params : List Byte) : Statement (.unknownCommand p code params) := of_fits rfl fun w => by
  simpa using (Bool.and_eq_true_iff.mp w).2

theorem readStatus (p : Port) (params : List Byte) : Statement (.readStatus p params) := of_fits rfl id

theorem readNotice (p : Port) (params : List Byte) : Statement (.readNotice p params) := of_fits rfl id

theorem setNoticeMask (p : Port) (params : List Byte) : Statement (.setNoticeMask p params) := of_fits rfl id

theorem readCapability (p : Port) (params : List Byte) : Statement (.readCapability p params) := of_fits rfl id

theorem login (p : Port) (params : List Byte) : Statement (.login p params) := of_fits rfl id

theorem logout (p : Port) (params : List Byte) : Statement (.logout p params) := of_fits rfl id

theorem micOn (p : Port) (params : List Byte) : Statement (.micOn p params) := of_fits rfl id

theorem micOff (p : Port) (params : List Byte) : Statement (.micOff p params) := of_fits rfl id

theorem cancelHandover (p : Port) (params : List Byte) : Statement (.cancelHandover p params) := of_fits rfl id

theorem selectSource (p : Port) (params : List Byte) : Statement (.selectSource p params) := of_fits rfl id

theorem readDesk (p : Port) (params : List Byte) : Statement (.readDesk p params) := of_fits rfl id

theorem readBooth (p : Port) (params : List Byte) : Statement (.readBooth p params) := of_fits rfl id

theorem readProgram (p : Port) (params : List Byte) : Statement (.readProgram p params) := of_fits rfl id

theorem openHire (p : Port) (params : List Byte) : Statement (.openHire p params) := of_fits rfl id

theorem addReceiver (p : Port) (params : List Byte) : Statement (.addReceiver p params) := of_fits rfl id

theorem returnReceiver (p : Port) (params : List Byte) : Statement (.returnReceiver p params) := of_fits rfl id

theorem writeOff (p : Port) (params : List Byte) : Statement (.writeOff p params) := of_fits rfl id

theorem changePreset (p : Port) (params : List Byte) : Statement (.changePreset p params) := of_fits rfl id

theorem readHire (p : Port) (params : List Byte) : Statement (.readHire p params) := of_fits rfl id

theorem readReceiver (p : Port) (params : List Byte) : Statement (.readReceiver p params) := of_fits rfl id

theorem rackSeated (p : Port) (params : List Byte) : Statement (.rackSeated p params) := of_fits rfl id

theorem rackBattery (p : Port) (params : List Byte) : Statement (.rackBattery p params) := of_fits rfl id

theorem rackRemoved (p : Port) (params : List Byte) : Statement (.rackRemoved p params) := of_fits rfl id

theorem stocktakeStart (p : Port) (params : List Byte) : Statement (.stocktakeStart p params) := of_fits rfl id

theorem stocktakeEnd (p : Port) (params : List Byte) : Statement (.stocktakeEnd p params) := of_fits rfl id

theorem takeSettlement (p : Port) (params : List Byte) : Statement (.takeSettlement p params) := of_fits rfl id

theorem findBadge (p : Port) (params : List Byte) : Statement (.findBadge p params) := of_fits rfl id

theorem openSession (p : Port) (params : List Byte) : Statement (.openSession p params) := of_fits rfl id

theorem recess (p : Port) (params : List Byte) : Statement (.recess p params) := of_fits rfl id

theorem resume (p : Port) (params : List Byte) : Statement (.resume p params) := of_fits rfl id

theorem endSession (p : Port) (params : List Byte) : Statement (.endSession p params) := of_fits rfl id

theorem setBooth (p : Port) (params : List Byte) : Statement (.setBooth p params) := of_fits rfl id

theorem setProgram (p : Port) (params : List Byte) : Statement (.setProgram p params) := of_fits rfl id

theorem planHold (p : Port) (params : List Byte) : Statement (.planHold p params) := of_fits rfl id

theorem planRelease (p : Port) (params : List Byte) : Statement (.planRelease p params) := of_fits rfl id

theorem planAbandon (p : Port) (params : List Byte) : Statement (.planAbandon p params) := of_fits rfl id

theorem setBankBudget (p : Port) (params : List Byte) : Statement (.setBankBudget p params) := of_fits rfl id

theorem setTariff (p : Port) (params : List Byte) : Statement (.setTariff p params) := of_fits rfl id

theorem setThreshold (p : Port) (params : List Byte) : Statement (.setThreshold p params) := of_fits rfl id

theorem setClock (p : Port) (params : List Byte) : Statement (.setClock p params) := of_fits rfl id

theorem dayClose (p : Port) (params : List Byte) : Statement (.dayClose p params) := of_fits rfl id

theorem enrolReceiver (p : Port) (params : List Byte) : Statement (.enrolReceiver p params) := of_fits rfl id

theorem withdrawReceiver (p : Port) (params : List Byte) : Statement (.withdrawReceiver p params) := of_fits rfl id

theorem reinstateReceiver (p : Port) (params : List Byte) : Statement (.reinstateReceiver p params) := of_fits rfl id

theorem deleteReceiver (p : Port) (params : List Byte) : Statement (.deleteReceiver p params) := of_fits rfl id

theorem readFaults (p : Port) (params : List Byte) : Statement (.readFaults p params) := of_fits rfl id

theorem clearFaults (p : Port) (params : List Byte) : Statement (.clearFaults p params) := of_fits rfl id

theorem readInterpreter (p : Port) (params : List Byte) : Statement (.readInterpreter p params) := of_fits rfl id

theorem readDaySummary (p : Port) (params : List Byte) : Statement (.readDaySummary p params) := of_fits rfl id

theorem resyncDistribution (p : Port) (params : List Byte) : Statement (.resyncDistribution p params) := of_fits rfl id

theorem portReset (p : Port) (params : List Byte) : Statement (.portReset p params) := of_fits rfl id

theorem readPlan (p : Port) (params : List Byte) : Statement (.readPlan p params) := of_fits rfl id

theorem readTariff (p : Port) (params : List Byte) : Statement (.readTariff p params) := of_fits rfl id

theorem vbakFailure : Statement .vbakFailure := of_none rfl

end Sys2Proof.Laws.Frame
end

