-- ==== Sys2Proof/Laws/Timebase.lean ====
section
/-! SUPPORT. The timebase's small lemmas: when each deadline and wait has been reached, what a step with no command waiting
changes, when the Distribution Link sends, and the three ways in which a start-up is cut short. -/

namespace Sys2Proof.Machine

variable (s : State)

theorem State.reached_iff (t : Nat) : s.reached t = true ↔ t ≤ s.now := by simp [State.reached]

/-- A request is due when its deadline has been reached (R1, R30). -/
theorem State.handoverDue_eq_some (b : Fin 24) (r : HandoverRequest) :
    s.handoverDue b = some r ↔ s.powered = true ∧ s.request b = some r ∧ r.deadline ≤ s.now := by
  unfold State.handoverDue
  split <;> simp [*, Option.filter_eq_some_iff, State.reached_iff]

/-- A candidate is due when it has been held for 500 ms (R1, R70). -/
theorem State.debounceDue_eq_some (b : Fin 8) :
    s.debounceDue = some b ↔ s.operating = true ∧ ∃ since, s.planner.candidate = some (b, since) ∧ since + 500 ≤ s.now := by
  unfold State.debounceDue
  split
  · cases h : s.planner.candidate with
    | none => simp
    | some c =>
      obtain ⟨x, t⟩ := c
      by_cases k : t + 500 ≤ s.now <;> simp [*, Option.filter, State.reached, debounceWait]
  · simp [*]

/-- The stocktake is due when it runs and its deadline has been reached (R1, R110). -/
theorem State.stocktakeDue_iff :
    s.stocktakeDue = true ↔ s.powered = true ∧ s.registry.stocktake.running = true ∧
      ∃ t, s.registry.stocktake.deadline = some t ∧ t ≤ s.now := by
  unfold State.stocktakeDue
  cases s.registry.stocktake.deadline <;> simp [State.reached, and_assoc]

/-- The tick watch is due when it runs and has come to 3000 ms (R1, R158). -/
theorem State.tickWatchDue_iff :
    s.tickWatchDue = true ↔ s.powered = true ∧ s.startup ≠ .checking ∧ s.session.tickLost = false ∧
      s.session.tickSince + 3000 ≤ s.now := by
  simp only [State.tickWatchDue, State.watchRuns, Bool.and_eq_true, State.reached_iff, tickWait, bne_iff_ne,
    Bool.not_eq_true', and_assoc]

/-- The stall watch is due when it has come to 2000 ms with no episode open (R1, R88). -/
theorem State.stallDue_iff :
    s.stallDue = true ↔ s.powered = true ∧ s.link.episode = false ∧
      ∃ t, s.link.stallSince = some t ∧ t + 2000 ≤ s.now := by
  unfold State.stallDue
  cases s.link.stallSince <;>
    simp only [Option.any_none, Option.any_some, Bool.and_eq_true, Bool.not_eq_true', State.reached_iff, stallWait, and_assoc] <;> simp

/-! ### A step in which no command waits -/

/-- A link has an opportunity when it is IDLE, READY is asserted and a key is pending (R82). -/
theorem Link.opportunity_iff (k : Link) :
    k.opportunity = true ↔ k.phase = .idle ∧ k.ready = true ∧ k.anyPending = true := by
  simp [Link.opportunity, and_assoc]

/-- A standing opportunity puts its event in the queue and changes nothing else. -/
theorem State.idle_of_sendDue (h : s.sendDue = true) : s.idle = { s with pending := [.sendOpportunity] } := by
  simp [State.idle, h]

/-- Without one, a request that waits is handed to its block, and nothing else changes. -/
theorem State.idle_of_handling (h : s.sendDue = false) {c : Instr} (k : s.nextHandling = some c) :
    s.idle = { s with pending := [c] } := by
  simp [State.idle, h, k]

/-- Without either, an idle millisecond changes the timebase and the queue alone. -/
theorem State.idle_of_nothing_due (h : s.sendDue = false) (k : s.nextHandling = none) :
    s.idle = { s with now := s.countMs.now, pending := s.countMs.due } := by
  rw [State.idle, if_neg (by simp [h]), k, State.countMs]; dsimp only; split <;> rfl

/-- A request waits exactly in a slot that holds it. -/
theorem State.mem_waiting (p : Port) (r : Request) : (p, r) ∈ s.waiting ↔ (s.port p).request = some r := by
  unfold State.waiting
  simp only [List.mem_filterMap, Option.map_eq_some_iff, Prod.mk.injEq]
  constructor
  · rintro ⟨q, -, x, hx, rfl, rfl⟩; exact hx
  · intro h; exact ⟨p, by cases p <;> simp, r, h, rfl, rfl⟩

/-- While RESET_N is asserted or main power is off, or with every slot empty, no request is handed over. -/
theorem State.nextHandling_none (h : s.operating = false ∨ ∀ p, (s.port p).request = none) : s.nextHandling = none := by
  unfold State.nextHandling
  split
  · rename_i o
    rcases h with h | h
    · rw [h] at o; exact absurd o (by simp)
    · simp [State.waiting, h]
  · rfl

/-- The request that was taken before every other that waits is handed over (R167). -/
theorem State.nextHandling_first (o : s.operating = true) (p : Port) (r : Request) (hr : (s.port p).request = some r)
    (h : ∀ q k, (s.port q).request = some k → q ≠ p → r.turn < k.turn) :
    s.nextHandling = some (commandOf p r.code r.params) := by
  unfold State.nextHandling
  rw [if_pos o]
  have least : ∀ y ∈ s.waiting, r.turn ≤ y.2.turn := by
    rintro ⟨q, k⟩ hy
    have hk := (s.mem_waiting q k).mp hy
    by_cases e : q = p
    · subst e; rw [hr, Option.some.injEq] at hk; rw [hk]
    · exact Nat.le_of_lt (h q k hk e)
  cases c : s.waiting.find? fun (x : Port × Request) =>
      s.waiting.all fun (y : Port × Request) => decide (x.2.turn ≤ y.2.turn) with
  | none =>
    have n := List.find?_eq_none.mp c (p, r) ((s.mem_waiting p r).mpr hr)
    exact absurd (List.all_eq_true.mpr fun y hy => by simpa using least y hy) n
  | some x =>
    obtain ⟨q, k⟩ := x
    have m := (s.mem_waiting q k).mp (List.mem_of_find?_eq_some c)
    have a : (s.waiting.all fun y => decide (k.turn ≤ y.2.turn)) = true := by
      have a := List.find?_some c
      exact a
    have a := List.all_eq_true.mp a (p, r)
      ((s.mem_waiting p r).mpr hr)
    have a : k.turn ≤ r.turn := by simpa using a
    have e : q = p := by
      by_contra e
      have := h q k m e
      omega
    subst e
    rw [hr, Option.some.injEq] at m
    rw [m]; rfl

/-- A request taken now has a turn above that of every request that waits. -/
theorem State.turn_lt_nextTurn (p : Port) (r : Request) (h : (s.port p).request = some r) : r.turn < s.nextTurn := by
  have base (n : Nat) (l : List Request) : n ≤ l.foldl (fun n r => max n (r.turn + 1)) n := by
    induction l generalizing n with
    | nil => exact Nat.le_refl n
    | cons a rest ih => exact Nat.le_trans (Nat.le_max_left ..) (ih _)
  have mem (n : Nat) (l : List Request) (x : Request) (hx : x ∈ l) :
      x.turn < l.foldl (fun n r => max n (r.turn + 1)) n := by
    induction l generalizing n with
    | nil => exact absurd hx (by simp)
    | cons a rest ih =>
      rcases List.mem_cons.mp hx with rfl | hx
      · exact Nat.lt_of_lt_of_le (Nat.lt_of_lt_of_le (Nat.lt_succ_self _) (Nat.le_max_right ..)) (base _ rest)
      · exact ih _ hx
  refine mem 0 _ r ?_
  cases p <;> simp only [State.port] at h <;> simp [h]

/-- The start-up check is due when it runs and has come to 300 ms (R1, R186). -/
theorem State.checkDue_iff :
    s.checkDue = true ↔ s.operating = true ∧ s.startup = .checking ∧ s.checkSince + 300 ≤ s.now := by
  simp [State.checkDue, State.reached_iff, checkWait, and_assoc]

/-- The link finds a key to choose exactly when one is pending (R82). -/
theorem Link.choose_isSome (k : Link) : k.choose.isSome = k.anyPending := by
  have any {n : Nat} (t : Table Bool n) : t.rows.any id = ((List.finRange n).find? fun i => t.get i).isSome := by
    rw [Bool.eq_iff_iff, List.any_eq_true, List.find?_isSome]
    constructor
    · rintro ⟨b, hb, ht⟩
      obtain ⟨i, hi, rfl⟩ := List.mem_iff_getElem.mp hb
      exact ⟨⟨i, t.size ▸ hi⟩, List.mem_finRange _, ht⟩
    · rintro ⟨i, -, hi⟩
      exact ⟨_, List.get_mem _ _, hi⟩
  unfold Link.choose Link.anyPending
  rw [any k.programKeys, any k.deskKeys]
  cases k.planKey
  · cases (List.finRange 32).find? fun p => k.programKeys.get p <;> simp
  · rfl

/-- Without an opportunity nothing is sent (R82). -/
theorem State.takeOpportunity_of_none (h : s.link.opportunity = false) : s.takeOpportunity = s := by
  simp [State.takeOpportunity, h]

/-- With one, the chosen key is cleared and its record goes into transmission (R82). -/
theorem State.takeOpportunity_sends (h : s.link.opportunity = true) :
    ∃ key, s.link.choose = some key ∧ s.takeOpportunity = s.updateLink fun k =>
      { k.clearKey key with phase := .sending (s.buildRecord key), readyRead := true } := by
  have c := s.link.choose_isSome
  rw [((Link.opportunity_iff _).mp h).2.2, Option.isSome_iff_exists] at c
  obtain ⟨key, c⟩ := c
  exact ⟨key, c, by simp [State.takeOpportunity, h, c]⟩

/-! ### Start-ups cut short -/

/-- What a cut leaves (R189): the start-up's second step is not carried out, or what it wrote stands. -/
theorem State.cutStartUp_cases (byReset : Bool) :
    s.cutStartUp byReset = { s with startUpsCut := s.startUpsCut + 1 } ∨
      s.cutStartUp byReset =
        State.checkOutcome { s with startUpsCut := s.startUpsCut + 1 } s.retention.failedGroup := by
  unfold State.cutStartUp; dsimp only; split <;> simp

/-- A cut by RESET_N of a start-up whose check finds nothing failed leaves nothing in the retained domain (R189). -/
theorem State.cutStartUp_warm (h : s.retention.failedGroup = none) :
    s.cutStartUp true = { s with startUpsCut := s.startUpsCut + 1 } := by
  simp [State.cutStartUp, h]

end Sys2Proof.Machine
end

