-- ==== Sys2Proof/Tests/Slice0.lean ====
section
/-! SUPPORT. The author's own tests: ill-formed events that the check refuses, one step of the commands with the
manual's worked figures as the expected results, and for every statement with premises a state and operands that meet
them. -/

namespace Sys2Proof.Tests

open Sys2Proof Sys2Proof.Machine

set_option Elab.async false

/-! ### Helpers -/

/-- The state after one event. -/
def after (c : Instr) (s : State) : State :=
  match exec c s with
  | .next t => t
  | .fault _ => s
  | .refused _ => s

/-- The result code and the fields of the answer that waits on a port. -/
def answerOf (p : Port) (s : State) : Option (Nat × List Nat) :=
  (s.port p).answer.map fun a => (a.result.code, a.fields.map (·.toNat))

/-- The kind and the context of each notice in a port's queue. -/
def noticesOf (p : Port) (s : State) : List (NoticeKind × List Nat) :=
  (s.port p).queue.map fun n => (n.kind, n.context)

/-- Booth b and position q of the manual, by place. -/
def at' (b : Fin 24) (q : Fin 3) : DeskId := ⟨b, q⟩

/-- A state that runs: reset with start-up over, the clock valid and the link IDLE. -/
def base : State :=
  { State.reset with
    startup := .done
    session := { State.reset.session with valid := true }
    link := { State.reset.link with phase := .idle } }

/-- A state with the timebase at a count. -/
def later (count : Nat) (s : State) : State := { s with now := count }

/-- A desk put into a state. -/
def seat (b : Fin 24) (q : Fin 3) (x : DeskState) (s : State) : State := s.modifyDesk ⟨b, q⟩ fun r => { r with state := x }

/-- A program configured, HIGH quality, with a priority and an engagement mode. -/
def program (p : Prog) (x : Priority) (m : Engagement) (s : State) : State :=
  s.setProgConfig p ⟨true, .default, x, .high, m⟩

/-- A program's live desk set. -/
def liveOn (p : Prog) (d : DeskId) (s : State) : State := s.modifyProgram p fun r => { r with liveDesk := some d }

/-- A hall in a LIVE session: programs 1 to 4 configured, 3 and 4 under OVERRIDE; booth 1 on 1 and 2, booth 2 on 3 and 1,
booth 3 on 2 and 4, booth 24 on 4; desk 24/3 LIVE on program 4. -/
def hall : State :=
  let s := program 1 .critical .interlock (program 2 .high .interlock (program 3 .low .override
    (program 4 .low .override (base.setSession .live))))
  let s := ((s.setBoothConfig 0 ⟨⟨some 1, some 2⟩, .immediate, 20, .force, 30⟩).setBoothConfig 1
    ⟨⟨some 3, some 1⟩, .negotiated, 20, .force, 30⟩).setBoothConfig 2 ⟨⟨some 2, some 4⟩, .negotiated, 120, .lapse, 10⟩
  let s := s.setBoothConfig 23 ⟨⟨some 4, none⟩, .immediate, 5, .force, 90⟩
  liveOn 4 ⟨23, 2⟩ (seat 23 2 (.live 65535 .a) s)

/-- Five receivers, in slots 1, 2, none, 512 and none, and the hire that has receiver 3 out. -/
def counter : State :=
  let l : List Receiver :=
    [⟨1, .ready, none, some 90, some 0, 4, true⟩, ⟨2, .charging, none, some 20, some 1, 0, false⟩,
     ⟨3, .onHire, some 7, some 60, none, 1, false⟩, ⟨4, .withdrawn, none, some 80, some 511, 0, false⟩,
     ⟨65535, .lost, some 9999, none, none, 65535, false⟩]
  let s := ((base.setReceivers l).setSlot 0 (some 1)).setSlot 1 (some 2) |>.setSlot 511 (some 4)
  let s := s.setHires [⟨7, .opened, 999999, 0, 500, some 0, ⟨0, 0⟩, false, false, none, none,
    [⟨3, .out, some 0, 0, none, none⟩], none⟩]
  (s.modifyProgram 0 fun r => { r with demand := 1 }).setStocktake ⟨true, some 300000, 1, 1⟩

/-! ### Ill-formed events -/

/-- A request frame declares at most 250 parameters (R178). -/
theorem test_params_above_250_ill_formed :
    Instr.wellFormed (.login .booth (List.replicate 251 0#8)) = false := by decide +kernel

/-- Transaction byte 2 is defined, so it is no undefined transaction byte (R166). -/
theorem test_defined_transaction_byte_ill_formed :
    Instr.wellFormed (.undefinedTransactionByte .hire 2#8) = false ∧
      Instr.wellFormed (.undefinedTransactionByte .hire 4#8) = true := by decide

/-- Code 69 is in the command table and code 6A is not (R169). -/
theorem test_known_code_ill_formed :
    Instr.wellFormed (.unknownCommand .booth 0x69#8 []) = false ∧
      Instr.wellFormed (.unknownCommand .booth 0x6A#8 []) = true := by decide

/-! ### Frames (R166 to R169) -/

/-- A whole frame with bytes after its declared parameters waits in the slot without them. -/
theorem test_request_transaction :
    ((after (.requestTransaction .hire [0x35#8, 4#8, 1#8, 0#8, 7#8, 1#8, 9#8]) base).port .hire).request =
      some ⟨0x35#8, [1#8, 0#8, 7#8, 1#8], 0⟩ := by decide +kernel

/-- With nothing else waiting, the request that was taken first is handed to its block, and no time passes. -/
theorem test_idle_hands_over_in_order_of_arrival :
    ∃ t, step (after (.requestTransaction .booth [0x16#8, 2#8, 1#8, 1#8])
        (after (.requestTransaction .hire [0x3C#8, 0#8]) base)) = .next t ∧ t.now = 0 ∧
      t.pending = [.takeSettlement .hire []] := ⟨_, rfl, by decide +kernel, by decide +kernel⟩

/-- SET CLOCK taken while STARTING is answered STARTING, code 19, at once; LOGIN on the Hire port WRONG_PORT, code 17; READ
HIRE with one parameter MALFORMED. -/
theorem test_request_checked_when_taken :
    answerOf .operator (after (.requestTransaction .operator [0x5C#8, 0#8]) State.reset) = some (19, []) ∧
    answerOf .hire (after (.requestTransaction .hire [0x10#8, 0#8]) base) = some (17, []) ∧
    answerOf .hire (after (.requestTransaction .hire [0x35#8, 1#8, 1#8]) base) = some (16, []) := by decide +kernel

/-- A frame cut short is answered MALFORMED, code 16. -/
theorem test_request_cut_short :
    answerOf .hire (after (.requestTransaction .hire [0x35#8, 2#8, 1#8]) base) = some (16, []) := by decide +kernel

/-- A fetch with an empty slot sends command code 00, EMPTY and length 0 after the status byte. -/
theorem test_fetch_empty :
    (after (.fetchAnswer .hire) base).ports.wire.hire = [0x00#8, 0x00#8, 0x03#8, 0x00#8] := by decide +kernel

/-- The status byte shows STARTING in bit 4. -/
theorem test_status_only :
    (after (.statusOnly .operator) State.reset).ports.wire.operator = [0x10#8] := by decide +kernel

theorem test_undefined_transaction :
    (after (.undefinedTransactionByte .booth 9#8) base).ports.wire.booth = [0x00#8] := by decide +kernel

/-- UNKNOWN_COMMAND is code 18. -/
theorem test_unknown_command :
    answerOf .booth (after (.unknownCommand .booth 0x70#8 []) base) = some (18, []) := by decide +kernel

/-- WRONG_PORT is code 17. -/
theorem test_wrong_port : answerOf .booth (after (.planHold .booth []) base) = some (17, []) := by decide +kernel

/-- STARTING is code 19. -/
theorem test_starting : answerOf .booth (after (.login .booth [1#8, 1#8, 0#8, 7#8]) State.reset) = some (19, []) := by
  decide +kernel

/-! ### The Booth Section (worked sequences of spec/01 and spec/02) -/

theorem test_login : ((after (.login .booth [24#8, 3#8, 0x04#8, 0xB1#8]) base).desk (at' 23 2)).state = .ready 1201 := by
  decide +kernel

theorem test_logout :
    ((after (.logout .booth [24#8, 3#8]) hall).program 4).lastCause = .released := by decide +kernel

/-- Step 3 of the worked sequence of spec/01: the target under OVERRIDE in another booth is cut with cause 4. -/
theorem test_mic_on_override :
    noticesOf .booth (after (.micOn .booth [3#8, 1#8, 2#8]) (seat 2 0 (.ready 3300) hall)) =
      [(.cut, [24, 3, 4, 4])] := by decide +kernel

/-- An output switch records SWITCHED for the program left. -/
theorem test_mic_on_switch :
    let s := after (.micOn .booth [1#8, 1#8, 2#8]) (liveOn 1 (at' 0 0) (seat 0 0 (.live 1201 .a) hall))
    (s.program 1).lastCause = .switched ∧ (s.program 2).liveDesk = some (at' 0 0) := by decide +kernel

theorem test_mic_off : ((after (.micOff .booth [24#8, 3#8]) hall).desk (at' 23 2)).state = .ready 65535 := by
  decide +kernel

/-- A dropped request queues HANDOVER_LAPSED with cause 2 (R33). -/
theorem test_cancel_handover :
    noticesOf .booth (after (.cancelHandover .booth [3#8]) (hall.setRequest 2 (some ⟨1, .b, 900, 0⟩))) =
      [(.handoverLapsed, [3, 2, 1, 2])] := by decide +kernel

/-- A forced handover queues CUT and then HANDOVER_DONE with forced 1 (R30). -/
theorem test_handover_expiry :
    noticesOf .booth (after (.handoverExpiry 1) (later 900 ((liveOn 3 (at' 1 0) (seat 1 0 (.live 5 .a)
      (seat 1 2 (.ready 6) hall))).setRequest 1 (some ⟨2, .a, 900, 0⟩)))) =
      [(.cut, [2, 1, 3, 3]), (.handoverDone, [2, 1, 3, 1])] := by decide +kernel

/-- The chain of spec/03: a program above a second relay is DIRECT and its desk BROKEN for DEPTH. -/
def chain : State :=
  let s := (hall.setBoothConfig 1 ⟨⟨some 2, none⟩, .immediate, 20, .force, 30⟩).setBoothConfig 2
    ⟨⟨some 3, none⟩, .immediate, 20, .force, 30⟩
  let s := liveOn 1 (at' 0 0) (liveOn 2 (at' 1 0) (liveOn 3 (at' 2 0) (seat 0 0 (.live 1 .a) (seat 1 0 (.live 2 .a)
    (seat 2 0 (.live 3 .a) s)))))
  (s.modifyDesk (at' 1 0) fun r => { r with selected := 1 }).modifyDesk (at' 2 0) fun r => { r with selected := 2 }

theorem test_select_source_depth :
    let s := after (.selectSource .booth [24#8, 3#8, 3#8]) chain
    (s.program 3).level = .secondRelay ∧ (s.program 4).level = .direct ∧
      (s.desk (at' 23 2)).relay = .broken .depth := by decide +kernel

/-- Closing a loop: both programs on it are DIRECT, their desks BROKEN for LOOP, and the one led into it is RELAY. -/
theorem test_select_source_loop :
    let s := after (.selectSource .booth [2#8, 1#8, 3#8]) (chain.modifyDesk (at' 23 2) fun r => { r with selected := 3 })
    (s.program 2).level = .direct ∧ (s.desk (at' 1 0)).relay = .broken .loop ∧ (s.program 4).level = .relay := by
  decide +kernel

/-- Desk 24/3 is LIVE on program 4, whose last-off-air cause here is OVERRIDDEN, code 4 (R170). -/
theorem test_read_desk :
    let s := hall.modifyProgram 4 fun r => { r with lastCause := .overridden }
    answerOf .hire (after (.readDesk .hire [24#8, 3#8]) s) =
      some (0, [3, 1, 255, 255, 1, 1, 0, 0, 0, 0, 0, 1, 0, 1, 4, 1, 4]) := by decide +kernel

theorem test_read_booth : answerOf .hire (after (.readBooth .hire [24#8]) hall) =
    some (0, [1, 4, 0, 1, 5, 1, 90, 1, 3, 0]) := by decide +kernel

theorem test_read_interpreter : (answerOf .hire (after (.readInterpreter .hire [1#8, 0#8, 7#8]) base)).map (·.1) =
    some 32 := by decide +kernel

/-! ### Programs, the plan and the link (spec/04, spec/05) -/

theorem test_read_program : (answerOf .booth (after (.readProgram .booth [4#8]) hall)).map (·.2.take 7) =
    some [1, 45, 45, 45, 3, 2, 2] := by decide +kernel

/-- A window of 0 is stored as 5 and a turn limit of 255 as 90 (R3). -/
theorem test_set_booth_clamps :
    answerOf .operator (after (.setBooth .operator [24#8, 1#8, 4#8, 0#8, 2#8, 0#8, 2#8, 255#8]) hall) =
      some (1, [1, 4, 0, 2, 5, 2, 90]) := by decide +kernel

/-- Floor's fixed values are stored in place of those given (R57, R59). -/
theorem test_set_program_floor :
    ((after (.setProgram .operator [0#8, 2#8, 0x46#8, 0x4C#8, 0x52#8, 3#8, 2#8, 2#8]) hall).program 0).config =
      ⟨true, ⟨0x46#8, 0x4C#8, 0x52#8⟩, .critical, .standard, .interlock⟩ := by decide +kernel

theorem test_plan_hold_again :
    answerOf .operator (after (.planHold .operator []) (after (.planHold .operator []) hall)) = some (23, []) := by
  decide +kernel

/-- A release that changes nothing answers that 0 programs and 0 booths changed. -/
theorem test_plan_release :
    let s := after (.planRelease .operator []) (after (.planHold .operator []) hall)
    answerOf .operator s = some (0, [0, 0]) ∧ s.planner.hold = none := by decide +kernel

theorem test_plan_abandon :
    (after (.planAbandon .operator []) (after (.planHold .operator []) hall)).planner.hold = none := by decide +kernel

theorem test_read_plan : answerOf .hire (after (.readPlan .hire [2#8]) hall) = some (37, []) := by decide +kernel

/-- A budget of 33 is stored as 32 (R69). -/
theorem test_set_bank_budget : answerOf .operator (after (.setBankBudget .operator [7#8, 33#8]) base) = some (1, [32]) := by
  decide +kernel

/-- The programs of the worked case of spec/04: the configuration and the demand of programs 0 to 14. -/
def panel : Table Program 32 :=
  let row (p : Nat) (x : Priority) (q : Quality) (demand : Nat) : Program :=
    { Program.default 1 with
      config := ⟨true, .default, x, q, .interlock⟩, radiation := .carried, demand := demand
      outage := BitVec.ofNat 32 (100 * p) }
  (((((((State.reset.programs.set 1 (row 1 .critical .high 310)).set 2 (row 2 .high .high 150)).set 3
    (row 3 .high .high 90)).set 4 (row 4 .low .high 40)).set 5 (row 5 .high .standard 30)).set 6
    (row 6 .high .standard 60)).set 7 (row 7 .low .standard 3)).set 8 (row 8 .low .standard 0) |>.set 9
    (row 9 .low .standard 12) |>.set 10 (row 10 .low .standard 0) |>.set 11 (row 11 .low .standard 5) |>.set 12
    (row 12 .low .standard 0) |>.set 13 (row 13 .low .standard 2) |>.set 14 (row 14 .low .standard 0)

/-- A panel fails: with budget 16, program 4 is demoted and 14 and 12 are shed; 16 slots are in use. -/
theorem test_debounce_expiry :
    let s := after .debounceExpiry { base with
      now := 4000500
      programs := panel
      planner := { base.planner with bank := 5, lines := 3, candidate := some (3, 4000000) } }
    s.planner.slotsInUse = 16 ∧ (s.program 4).radiation = .demoted ∧
      noticesOf .booth s = [(.programShed, [12, 3, 0, 16]), (.programShed, [14, 3, 0, 16])] := by decide +kernel

/-- The budget falls to 4: programs 3 to 14 are shed, 2 is demoted and 1 stays at HIGH. -/
theorem test_allocation_at_bank_0 :
    let c := allocate panel 4
    c.total = 4 ∧ c.get 1 = some .high ∧ c.get 2 = some .standard ∧ c.get 3 = none ∧ c.get 14 = none := by
  decide +kernel

theorem test_health_line_change :
    (after (.healthLineChange 6) base).planner.candidate = some (6, 0) := by decide +kernel

/-- The plan record comes first (R82), with Floor, carried at STANDARD (R84). -/
theorem test_ready_assert :
    (after .readyAssert base).link.phase = .sending (.plan 0 4 [(0, .standard)]) := by decide +kernel

/-- A transmission that completes with READY asserted starts the next record: program 0's route, 81 00 00 00 at level 0. -/
theorem test_transmission_complete :
    (after .transmissionComplete (after .readyAssert base)).link.phase = .sending (.route 0 none .floorFallback .carried) := by
  decide +kernel

theorem test_send_opportunity :
    (after .sendOpportunity { base with link := { base.link with ready := true } }).link.pendingCount = 104 := by
  decide +kernel

theorem test_ready_deassert : (after .readyDeassert base).link.stallSince = some 0 := by decide +kernel

/-- The watch reaches 2000 ms: DL_STALL with the number of pending keys. -/
theorem test_stall_watch_expiry :
    (after .stallWatchExpiry (later 2000 (after .readyDeassert base))).faults.record =
      some ⟨.dlStall, 105, ⟨0, 0⟩⟩ := by decide +kernel

/-- A key set on an IDLE link with READY asserted: the opportunity is taken before any time passes. -/
theorem test_idle_sends_at_once :
    ∃ t, step { base with link := { base.link with ready := true } } = .next t ∧ t.now = 0 ∧
      t.pending = [.sendOpportunity] := ⟨_, rfl, by decide +kernel, by decide +kernel⟩

/-- At 1999 ms no command waits: the count reaches 2000, and the watch's expiry is queued. -/
theorem test_idle_queues_stall_watch :
    ∃ t, step (later 1999 (after .readyDeassert base)) = .next t ∧ t.now = 2000 ∧
      t.pending = [.stallWatchExpiry] := ⟨_, rfl, by decide +kernel, by decide +kernel⟩

/-- At 299 ms a start-up check still runs: the count reaches 300, and its completion is queued. -/
theorem test_idle_completes_the_check :
    ∃ t, step (later 299 State.reset) = .next t ∧ t.now = 300 ∧ t.pending = [.startupCheckComplete] :=
  ⟨_, rfl, by decide +kernel, by decide +kernel⟩

theorem test_resync : answerOf .operator (after (.resyncDistribution .operator []) base) = some (0, [0]) := by
  decide +kernel

/-! ### The registry and the racks (spec/06) -/

/-- Receiver 258 takes place 5 of 6. -/
theorem test_enrol : answerOf .operator (after (.enrolReceiver .operator [1#8, 2#8]) counter) = some (0, [0, 5, 0, 6]) := by
  decide +kernel

theorem test_withdraw : answerOf .operator (after (.withdrawReceiver .operator [0#8, 3#8]) counter) = some (35, []) := by
  decide +kernel

/-- A battery of 80 is at the threshold of 80. -/
theorem test_reinstate :
    answerOf .operator (after (.reinstateReceiver .operator [0#8, 4#8]) counter) = some (0, [1]) := by decide +kernel

theorem test_delete_frees_slot :
    (after (.deleteReceiver .operator [0#8, 4#8]) counter).registry.slots.get 511 = none := by decide +kernel

/-- A threshold of 10 is stored as 20: receiver 2, at 20, becomes READY. -/
theorem test_set_threshold : answerOf .operator (after (.setThreshold .operator [10#8]) counter) = some (1, [20, 0, 1]) := by
  decide +kernel

/-- A collision: receiver 2 displaces receiver 1 from slot 1, and RECEIVER_UNRACKED has cause 1 (R102). -/
theorem test_rack_seated :
    let s := after (.rackSeated .hire [0#8, 2#8, 0#8, 1#8, 101#8]) counter
    answerOf .hire s = some (1, [1, 0, 1, 100, 1, 0, 1, 0, 0, 0, 0]) ∧
      noticesOf .hire s = [(.receiverUnracked, [1, 1, 1, 0])] ∧ s.registry.stocktake.marksLeft = 0 := by decide +kernel

theorem test_rack_battery : answerOf .hire (after (.rackBattery .hire [0#8, 2#8, 80#8]) counter) = some (0, [1, 80]) := by
  decide +kernel

theorem test_rack_removed :
    noticesOf .hire (after (.rackRemoved .hire [0#8, 1#8]) counter) = [(.receiverUnracked, [1, 1, 2, 0])] := by
  decide +kernel

theorem test_stocktake_start : answerOf .hire (after (.stocktakeStart .hire []) counter) = some (23, []) := by
  decide +kernel

/-- The marked receiver is unracked and its slot freed. -/
theorem test_stocktake_end :
    let s := after (.stocktakeEnd .hire []) counter
    answerOf .hire s = some (0, [0, 1, 0, 1]) ∧ s.registry.slots.get 0 = none := by decide +kernel

theorem test_stocktake_expiry :
    noticesOf .hire (after .stocktakeExpiry (later 300000 counter)) = [(.stocktakeAbandoned, [1, 1, 0, 0])] ∧
      noticesOf .hire (after .stocktakeExpiry (later 299999 counter)) = [] := by decide +kernel

theorem test_read_receiver :
    (answerOf .hire (after (.readReceiver .hire [3#8, 0#8, 3#8]) counter)).map (·.1) = some 3 := by decide +kernel

/-! ### Hires and settlement (spec/07, spec/08) -/

theorem test_open_hire :
    let s := after (.openHire .hire [0#8, 0#8, 5#8, 7#8, 0#8, 1#8, 0#8, 1#8, 0#8, 1#8, 0#8, 1#8]) counter
    (answerOf .hire s).map (·.2.take 6) = some [0, 1, 0, 1, 0, 1] ∧ (s.program 0).demand = 2 := by decide +kernel

/-- A badge that a record holds is refused with that hire's number. -/
theorem test_open_hire_badge :
    answerOf .hire (after (.openHire .hire [0x0F#8, 0x42#8, 0x3F#8, 7#8, 0#8, 1#8, 0#8, 0#8, 1#8, 0#8, 1#8]) counter) =
      some (31, [0, 7]) := by decide +kernel

theorem test_add_receiver : answerOf .hire (after (.addReceiver .hire [0#8, 7#8, 0#8, 1#8]) counter) = some (0, [2, 2]) := by
  decide +kernel

/-- The last line's return closes the hire into the empty queue: SETTLEMENT_WAITING. -/
theorem test_return_receiver :
    let s := after (.returnReceiver .hire [0#8, 3#8]) counter
    s.hires.records = [] ∧ s.settlement.queue.length = 1 ∧ noticesOf .hire s = [(.settlementWaiting, [7, 1, 0, 0])] := by
  decide +kernel

theorem test_write_off :
    ((after (.writeOff .hire [0#8, 7#8, 0#8, 3#8]) counter).receiver 3).map (·.state) = some .lost := by decide +kernel

theorem test_change_preset :
    let s := after (.changePreset .hire [0#8, 7#8, 0#8]) counter
    (s.program 0).demand = 0 ∧ (s.hire 7).bind (·.preset) = none := by decide +kernel

theorem test_read_hire : (answerOf .hire (after (.readHire .hire [2#8, 0#8, 1#8, 1#8]) counter)).map (·.1) = some 0 := by
  decide +kernel

theorem test_find_badge :
    answerOf .booth (after (.findBadge .booth [0x0F#8, 0x42#8, 0x3F#8]) counter) = some (0, [0, 7, 1, 1, 1]) := by
  decide +kernel

/-- Line A of the three-line hire of spec/08: 3 net units at 250. -/
theorem test_charge_line_a :
    lineAccount ⟨15, 60, 250, 1500, 12000, 24⟩ ⟨2, 31820⟩ ⟨1, .returned, some 52000, 0, some ⟨2, 45065⟩, some 56210⟩ =
      ⟨1, .returned, 221, 4, 1, 750⟩ := by decide +kernel

/-- Line B, capped at two periods. -/
theorem test_charge_line_b :
    lineAccount ⟨15, 60, 250, 1500, 12000, 24⟩ ⟨2, 31820⟩ ⟨2, .returned, some 52000, 0, some ⟨3, 32700⟩, some 56210⟩ =
      ⟨2, .returned, 1455, 25, 1, 3000⟩ := by decide +kernel

/-- Line 1 of the limits case: saturated. -/
theorem test_charge_saturates :
    (lineAccount ⟨0, 1, 65535, 0, 1000000, 24⟩ ⟨10, 0⟩
      ⟨1, .returned, some 40000, 0, some ⟨10, 18000⟩, some 40600⟩).charge = 16777215 := by decide +kernel

theorem test_take_settlement : answerOf .hire (after (.takeSettlement .hire []) base) = some (3, [0]) := by decide +kernel

/-- A unit length of 0 is stored as 1 (R135). -/
theorem test_set_tariff :
    answerOf .operator (after (.setTariff .operator
      [7#8, 10#8, 0#8, 0#8, 0#8, 1#8, 0#8, 0#8, 2#8, 0#8, 0#8, 3#8, 24#8]) base) =
      some (1, [10, 0, 1, 0, 1, 0, 0, 2, 0, 0, 3, 24]) := by decide +kernel

theorem test_read_tariff : answerOf .booth (after (.readTariff .booth [0#8]) base) =
    some (0, [10, 0, 60, 0, 0, 0, 0, 0, 0, 0, 0, 24]) := by decide +kernel

/-! ### Session, clock and day (spec/09) -/

theorem test_open_session : noticesOf .hire (after (.openSession .operator []) base) = [(.sessionChanged, [1, 2, 0, 0])] := by
  decide +kernel

theorem test_recess :
    noticesOf .booth (after (.recess .operator []) hall) = [(.cut, [24, 3, 4, 6]), (.sessionChanged, [2, 3, 0, 0])] := by
  decide +kernel

theorem test_resume : answerOf .operator (after (.resume .operator []) hall) = some (28, []) := by decide +kernel

theorem test_end_session : (after (.endSession .operator []) hall).session.state = .setup := by decide +kernel

/-- A clock set before an OPEN hire's opened time raises CLOCK_STEP_BACK with that hire. -/
theorem test_set_clock :
    let s := after (.setClock .operator [0#8, 0#8, 0#8, 0#8, 9#8])
      (counter.modifyHire 7 fun h => { h with openedAt := ⟨0, 10⟩ })
    s.session.clock = ⟨0, 9⟩ ∧ s.faults.record = some ⟨.clockStepBack, 7, ⟨0, 9⟩⟩ := by decide +kernel

theorem test_day_close : answerOf .operator (after (.dayClose .operator []) counter) = some (0, [0, 1, 0, 2, 0]) := by
  decide +kernel

theorem test_read_day_summary : (answerOf .hire (after (.readDaySummary .hire []) counter)).map (·.1) = some 3 := by
  decide +kernel

/-- The last second of a day is followed by the next day. -/
theorem test_tick : (after .tick (base.setClock ⟨3, 86399⟩ true)).session.clock = ⟨4, 0⟩ := by decide +kernel

/-- TURN_DUE at the turn limit of 90 minutes, with the interpreter. -/
theorem test_tick_turn_due :
    noticesOf .booth (after .tick (hall.modifyDesk (at' 23 2) fun r => { r with turnSeconds := 5399 })) =
      [(.turnDue, [24, 3, 65535, 90])] := by decide +kernel

theorem test_tick_watch_expiry :
    let s := after .tickWatchExpiry (later 3000 base)
    s.session.valid = false ∧ s.faults.record = some ⟨.tickLost, 0, ⟨0, 0⟩⟩ := by decide +kernel

/-! ### Notices, faults and port commands (spec/10, spec/11) -/

theorem test_read_notice :
    (answerOf .hire (after (.readNotice .hire []) (base.notify .hireOverdue 7 1 2 3))).map (·.2) =
      some [12, 0, 0, 0, 0, 0, 7, 0, 1, 0, 2, 0, 3, 0, 0] := by decide +kernel

theorem test_set_notice_mask : ((after (.setNoticeMask .hire [2#8, 12#8, 12#8]) base).port .hire).mask = [.hireOverdue] := by
  decide +kernel

theorem test_port_reset :
    let s := after (.portReset .operator [2#8]) (base.notify .hireOverdue 7 1 2 3)
    answerOf .operator s = some (0, [1, 0]) ∧ noticesOf .hire s = [] := by decide +kernel

theorem test_read_status : (answerOf .hire (after (.readStatus .hire []) base)).map (·.2.take 4) = some [2, 0, 1, 0] := by
  decide +kernel

theorem test_read_faults :
    (answerOf .booth (after (.readFaults .booth []) (base.raiseFault .settlementBacklog 305))).map (·.2.take 8) =
      some [1, 0, 0, 1, 4, 1, 1, 49] := by decide +kernel

theorem test_clear_faults :
    (after (.clearFaults .operator [1#8, 1#8]) (base.raiseFault .settlementBacklog 305)).faults.record = none := by
  decide +kernel

theorem test_read_capability :
    ((after (.readCapability .booth []) base).port .booth).answer.map (·.result) = some .ok := by decide +kernel

/-! ### Power and reset (spec/11) -/

theorem test_power_on : (after .powerOn (base.setSession .live)).session.state = .setup := by decide +kernel

/-- A first start-up is a cold start: RETENTION_LOST with context 0, then STARTED with cause 3 and count 1. -/
theorem test_startup_check_complete :
    noticesOf .operator (after .startupCheckComplete State.reset) =
      [(.faultRaised, [6, 2, 0, 0]), (.started, [3, 1, 0, 0])] := by decide +kernel

/-- An external reset counts a restart and keeps the retained domain. -/
theorem test_external_reset :
    let s := after .externalReset counter
    s.session.restartCount = 2 ∧ s.hires = counter.hires ∧ s.link.phase = .held := by decide +kernel

/-- The release recomputes demand from the OUT lines. -/
theorem test_reset_release :
    let s := after .resetRelease (after .externalReset counter)
    (s.program 0).demand = 1 ∧ noticesOf .operator s = [(.started, [2, 2, 0, 0])] := by decide +kernel

theorem test_main_power_loss : after (.statusOnly .booth) (after .mainPowerLoss base) = after .mainPowerLoss base := by
  decide +kernel

/-- Main power lost during a warm start-up: by the next power-on the check still finds the domain intact, whatever
the start-up had come to. -/
theorem test_main_power_loss_at_start :
    (after .mainPowerLoss { State.reset with retention := ⟨true, .replicate 10 true⟩ }).retention =
      ⟨true, .replicate 10 true⟩ := by
  cases h : Config.cutPastOutcome 0 <;> simp only [after, execMainPowerLoss, exec, State.cutStartUp] <;>
    simp (decide := true) [State.reset, h]

theorem test_vbak_failure :
    (after .vbakFailure { base with powered := false, retention := { base.retention with marker := true } }).retention.marker =
      false := by decide +kernel

/-! ### Premises

Each theorem shows concrete states and operands that meet the premises of the statement it is named after, clause by
clause and in its order, at the ends of the operands' ranges where a clause has one. A premise about an optional value is
written over its members. The equations that name an intermediate value (a state u, the bytes of an answer) are met by
that value and stand here only where they constrain something else. -/

theorem test_premises_StepRunsFrontCommand :
    { base with pending := [.tick, .powerOn] }.pending = Instr.tick :: [.powerOn] ∧ base.pending = [] ∧
      (after .mainPowerLoss base).pending = [] ∧ base.powered = true ∧ base.link.ready = false ∧
      (let s := { base with link := { base.link with ready := true } }
       s.pending = [] ∧ s.powered = true ∧ s.link.phase = .idle ∧ s.link.ready = true ∧ s.link.anyPending = true) := by
  decide +kernel

/-- Two requests that wait: TAKE SETTLEMENT on the Hire port, and after it READ BOOTH on the Booth port. -/
def twoWait : State :=
  after (.requestTransaction .booth [0x17#8, 1#8, 24#8]) (after (.requestTransaction .hire [0x3C#8, 0#8]) base)

theorem test_premises_StepRunsFrontCommand_waiting :
    (twoWait.pending = [] ∧ twoWait.powered = true ∧ twoWait.resetAsserted = false ∧ twoWait.link.ready = false ∧
      (twoWait.port .hire).request = some ⟨0x3C#8, [], 0⟩ ∧ (twoWait.port .booth).request = some ⟨0x17#8, [24#8], 1⟩ ∧
      (twoWait.port .operator).request = none) ∧
    ((after .externalReset twoWait).resetAsserted = true ∧ ∀ p, (base.port p).request = none) ∧
    (State.reset.startup = .checking ∧ (later 299 State.reset).checkSince + 300 ≤ 299 + 1) :=
  ⟨by decide +kernel, ⟨by decide +kernel, fun p => by cases p <;> rfl⟩, by decide +kernel⟩

theorem test_premises_RequestsDecodeAndEncodeAgree :
    (Instr.login .hire (List.replicate 250 0xFF#8)).wellFormed = true ∧
      requestOf (.login .hire (List.replicate 250 0xFF#8)) = some (.hire, 0x10#8, List.replicate 250 0xFF#8) ∧
      (Instr.unknownCommand .booth 0x00#8 []).wellFormed = true ∧ (List.replicate 250 0xFF#8).length ≤ 250 := by
  decide +kernel

/-- A state with a tick at the front of its queue. -/
def queued (s : State) : State := { s with pending := [.tick] }

theorem test_premises_QueuesAndTablesStayBounded :
    ((queued counter).portsOk ∧ (queued counter).tablesOk ∧ (later (2 ^ 64 - 1) base).now ≤ 2 ^ 64 - 1) ∧
      (∃ t, step (queued counter) = .next t) ∧ (∃ t, step (later (2 ^ 64 - 1) base) = .next t) ∧
      twoWait.waitingPassed ∧ ∃ t, step twoWait = .next t :=
  ⟨by decide +kernel, ⟨_, rfl⟩, ⟨_, rfl⟩, fun p r h => by
    cases p
    · obtain rfl : (⟨0x17#8, [24#8], 1⟩ : Request) = r := Option.some.inj h; decide +kernel
    · obtain rfl : (⟨0x3C#8, [], 0⟩ : Request) = r := Option.some.inj h; decide +kernel
    · exact absurd h (by rw [show (twoWait.port .operator).request = none by decide +kernel]; simp), _, rfl⟩

theorem test_premises_RetainedValuesStayLawful :
    (queued hall).valuesInRange ∧ (queued hall).floorFixed ∧ (queued hall).wordsAgree ∧
      (after (.planHold .operator []) hall).floorFixed ∧ ∃ t, step (queued hall) = .next t :=
  ⟨by decide +kernel, by decide +kernel, by decide +kernel, by decide +kernel, _, rfl⟩

theorem test_premises_RefusedCommandsChangeNothing :
    hall.canTake .booth ∧ (Instr.login .booth []).wellFormed = true ∧
      requestOf (.login .booth []) = some (.booth, 0x10#8, []) := by decide +kernel

theorem test_premises_RequestChecksRunInOrder :
    (State.reset.powered = true ∧ State.reset.resetAsserted = false ∧ (State.reset.port .operator).request = none ∧
      State.reset.ports.selfReset = false ∧ State.reset.startup ≠ .done ∧
      Brings (.readNotice .operator []) .operator 0x02#8 [] ∧
      Brings (.requestTransaction .operator (0x02#8 :: 0#8 :: ([] ++ [9#8]))) .operator 0x02#8 []) ∧
    (base.canTake .hire ∧ Brings (.unknownCommand .hire 0xFF#8 []) .hire 0xFF#8 [] ∧ commandAccess 0xFF#8 = none) ∧
    (Brings (.requestTransaction .hire (0x10#8 :: 0#8 :: ([] ++ []))) .hire 0x10#8 [] ∧
      commandAccess 0x10#8 = some (.only .booth) ∧ Port.booth ≠ .hire) ∧
    (acceptedOn 0x01#8 .hire = true ∧ paramsFit 0x01#8 [0#8] = false ∧ base.canTake .operator ∧
      acceptedOn 0x5A#8 .operator = true ∧ paramsFit 0x5A#8 (List.replicate 12 0#8) = false) ∧
    (base.canTake .booth ∧ commandAccess 0x05#8 = none ∧ (List.replicate 250 0#8).length ≤ 250) ∧
    (paramsFit 0x03#8 [0#8] = true ∧ paramsFit 0x63#8 [4#8, 1#8, 1#8, 1#8, 1#8] = false ∧
      paramsFit 0x30#8 [0#8, 0#8, 1#8, 7#8, 0#8, 0#8, 0#8, 0#8, 1#8, 0#8, 1#8] = true ∧
      paramsFit 0x30#8 [0#8, 0#8, 1#8, 7#8, 0#8, 0#8, 0#8, 0#8, 0#8] = false ∧
      paramsFit 0x34#8 [0#8, 7#8, 1#8, 31#8] = true ∧ paramsFit 0x34#8 [0#8, 7#8, 1#8] = false ∧
      paramsFit 0x54#8 [1#8, 0#8, 1#8, 2#8, 1#8, 20#8, 1#8, 30#8] = true) :=
  ⟨⟨by decide +kernel, by decide +kernel, by decide +kernel, by decide +kernel, by decide +kernel,
      .inl ⟨by decide +kernel, rfl⟩, .inr ⟨_, _, rfl, by decide +kernel, by decide +kernel⟩⟩,
    ⟨by decide +kernel, .inl ⟨by decide +kernel, rfl⟩, by decide +kernel⟩,
    ⟨.inr ⟨_, _, rfl, by decide +kernel, by decide +kernel⟩, by decide +kernel, by decide +kernel⟩,
    by decide +kernel, by decide +kernel, by decide +kernel⟩

/-- The Operator port with a pending self-reset. -/
def selfReset : State := after (.portReset .operator [3#8]) base

theorem test_premises_RequestTransactionTakesTheFrame :
    (base.powered = true ∧ base.resetAsserted = false ∧
      (twoWait.port .hire).request = some ⟨0x3C#8, [], 0⟩) ∧
    ((base.port .operator).request = none ∧ base.ports.selfReset = false ∧ 250 < (0xFB#8).toNat ∧
      ([] : List Byte).length < (1#8).toNat ∧ ([] : List Byte).length = (0#8).toNat ∧
      (List.replicate 250 9#8).length = (0xFA#8).toNat ∧ (0xFA#8).toNat ≤ 250 ∧
      base.portCheck .operator 0x5D#8 [] = none ∧
      base.portCheck .operator 0x5D#8 (List.replicate 250 9#8) = some .malformed) ∧
    (selfReset.powered = true ∧ selfReset.resetAsserted = false ∧ (selfReset.port .operator).request = none ∧
      selfReset.ports.selfReset = true ∧ 250 < (0xFF#8).toNat ∧ ([] : List Byte).length < (1#8).toNat ∧
      selfReset.portCheck .operator 0x10#8 [] = some .wrongPort ∧ selfReset.portCheck .operator 0x5D#8 [] = none) := by
  decide +kernel

theorem test_premises_ATakenRequestIsHandledAsItsCommand :
    base.powered = true ∧ base.resetAsserted = false ∧ (∀ q, (base.port q).request = none) ∧ base.pending = [] ∧
      base.link.ready = false ∧ ([] : List Byte).length = (0#8).toNat ∧
      (List.replicate 250 9#8).length = (0xFA#8).toNat ∧ base.portCheck .hire 0x3C#8 [] = none ∧
      base.portCheck .hire 0x3C#8 (List.replicate 250 9#8) = some .malformed ∧
      ∃ u, exec (.requestTransaction .hire (0x3C#8 :: 0#8 :: ([] ++ [7#8]))) base = .next u :=
  ⟨by decide +kernel, by decide +kernel, fun q => by cases q <;> rfl, by decide +kernel, by decide +kernel,
    by decide +kernel, by decide +kernel, by decide +kernel, by decide +kernel, _, rfl⟩

theorem test_premises_AnAnswerIsFetchedOnce :
    (base.powered = true ∧ base.resetAsserted = false ∧ (base.port .hire).answer = none) ∧
    ((after (.takeSettlement .hire []) base).port .hire).answer = some ⟨0x3C#8, .empty, [0#8]⟩ ∧
    ((selfReset.port .operator).answer = some ⟨0x67#8, .ok, [0#8, 0#8]⟩ ∧ selfReset.ports.selfReset = true) := by
  decide +kernel

theorem test_premises_StatusTransactionsShowTheFlags :
    base.powered = true ∧ base.resetAsserted = false ∧ 0#8 ≠ 1#8 ∧ 0#8 ≠ 2#8 ∧ 0#8 ≠ 3#8 ∧ 4#8 ≠ 3#8 := by
  decide +kernel

theorem test_premises_NoTransactionWhileResetOrOff :
    (after .mainPowerLoss hall).powered = false ∧ (after .externalReset hall).resetAsserted = true := by decide +kernel

/-- A state whose Operator queue is full of CUT notices, as no run leaves it. -/
def full : State := base.setPort .operator { base.port .operator with
  queue := List.replicate 16 ⟨.bankChanged, ⟨0, 0⟩, [0, 1, 4, 0]⟩ }

theorem test_premises_NoticesJoinUnlessMaskedOrFull :
    (NoticeKind.cut ∉ (base.port .operator).mask) ∧
    (NoticeKind.started ∈ (base.port .operator).mask ∧ (base.port .operator).queue.length < 16) ∧
    (NoticeKind.started ∈ (full.port .operator).mask ∧ 16 ≤ (full.port .operator).queue.length) ∧
    NoticeKind.ports .started = [.operator] ∧
    (Port.booth ∈ NoticeKind.ports .programShed ∧ Port.hire ∉ NoticeKind.ports .programShed) ∧
    ∀ p ∈ NoticeKind.ports .sessionChanged, .sessionChanged ∈ (base.port p).mask ∧ (base.port p).queue.length < 16 := by
  decide +kernel

theorem test_premises_AFaultRaiseFollowsTheTable :
    FaultKind.severe .tickLost = false ∧ FaultKind.severe .retentionLost = true ∧
      FaultCapture.reset.alertSeen = false ∧ FaultCapture.reset.severeSeen = false ∧
      FaultCapture.reset.multipleSevere = false ∧ (base.raiseFault .tickLost 9999).faults.alertSeen = true ∧
      (base.raiseFault .dlStall 105).faults.severeSeen = true ∧ base.startup = .done ∧
      (base.port .operator).queue.length < 16 := by decide +kernel

theorem test_premises_ARaiseThatLatchesIsNotified :
    State.reset.startup ≠ .done ∧ base.startup = .done ∧
      (base.faults.take .tickLost 0 base.session.clock).2 = true ∧
      ((base.raiseFault .tickLost 0).startup = .done ∧
        ((base.raiseFault .tickLost 0).faults.take .budgetDeficit 9 base.session.clock).2 = false) := by decide +kernel

theorem test_premises_ReadNoticeTakesTheOldest :
    base.canTake .hire ∧ (base.port .hire).queue = [] ∧ (base.notify .hireOverdue 7 1 2 3).canTake .hire ∧
      ((base.notify .hireOverdue 7 1 2 3).port .hire).queue = ⟨.hireOverdue, ⟨0, 0⟩, [7, 1, 2, 3]⟩ :: [] := by
  decide +kernel

theorem test_premises_SetNoticeMaskSetsTheMask :
    base.canTake .hire ∧ (List.replicate 19 NoticeKind.hireOverdue).length ≤ 19 ∧
      (∀ k ∈ List.replicate 19 NoticeKind.hireOverdue, k ∈ kindsOf .hire) ∧
      [0#8].length ≤ 19 ∧ (∃ b ∈ [0#8], ∀ k ∈ kindsOf .hire, b.toNat ≠ k.code) ∧
      (∃ b ∈ [20#8], ∀ k ∈ kindsOf .hire, b.toNat ≠ k.code) ∧ (∃ b ∈ [5#8], ∀ k ∈ kindsOf .hire, b.toNat ≠ k.code) := by
  decide +kernel

theorem test_premises_PortResetResetsOnePort : full.canTake .operator := by decide +kernel

theorem test_premises_ClearFaultsClearsTheFlagsListed :
    (base.raiseFault .settlementBacklog 305).canTake .operator ∧
      [FlagName.alertSeen, .alertSeen, .multipleSevere].length ≤ 3 ∧ base.canTake .hire ∧ Port.hire ≠ .operator ∧
      (∃ b ∈ [1#8, 4#8, 0#8], b.toNat = 0 ∨ 3 < b.toNat) ∧ [1#8, 4#8, 0#8].length ≤ 3 := by decide +kernel

theorem test_premises_TableReadsAnswerAndChangeNothing :
    hall.canTake .hire ∧ (1 ≤ 65535 ∧ 65535 ≤ 65535) ∧ (1 ≤ 96 ∧ 96 ≤ 96) ∧ (1 ≤ 9999 ∧ 9999 ≤ 9999) ∧ 1 ≤ 2048 ∧
      (num [0#8, 97#8] = 97 ∧ num [0x27#8, 0x10#8] = 10000 ∧ num [2#8, 1#8] = 513 ∧ num [8#8, 1#8] = 2049 ∧
        num [0#8, 0#8] = 0 ∧ (4#8).toNat ≠ 3) := by
  decide +kernel

theorem test_premises_StatusReadsAnswerAndChangeNothing :
    (State.reset.powered = true ∧ State.reset.resetAsserted = false ∧ (State.reset.port .booth).request = none) ∧
      base.canTake .booth ∧ base.planner.hold = none ∧ (after (.planHold .operator []) hall).canTake .booth ∧
      (after (.planHold .operator []) hall).planner.hold =
        some ⟨hall.programs.map (·.config), hall.booth.configs.map (·.outputs)⟩ := by decide +kernel

theorem test_premises_TariffsAreSetAndRead :
    base.canTake .booth ∧ Port.booth ≠ .operator ∧ base.canTake .operator ∧ 255 < 256 ∧ 65535 < 2 ^ 16 ∧
      16777215 < 2 ^ 24 ∧ 7 < 8 ∧ (7 : Fin 8).val = 7 ∧ (8#8).toNat > 7 ∧ (7#8).toNat = (7 : Fin 8).val := by
  decide +kernel

theorem test_premises_FindBadgeGivesTheHire :
    counter.canTake .booth ∧ 999999 < 2 ^ 24 ∧ 999999 < 1000000 ∧
      (∀ h ∈ counter.hires.records, h.badge = 999999 ∧ ∀ g ∈ counter.hires.records, g.badge = 999999 → g = h) ∧
      (∀ h ∈ counter.hires.records, h.badge ≠ 1) := by decide +kernel

theorem test_premises_LoginAndLogoutSeatAndVacate :
    (hall.canTake .hire ∧ Port.hire ≠ .booth ∧ (24 : Nat) < (25#8).toNat ∧ 3 < (4#8).toNat) ∧
    (hall.canTake .booth ∧ (hall.desk (at' 0 0)).state = .vacant ∧ hall.interpreter 65535 = none ∧
      hall.booth.interpreters.length < 96) ∧
    ((hall.setInterpreters [⟨1, none, 0, 0, 5, 5⟩]).canTake .booth ∧
      (hall.setInterpreters [⟨1, none, 0, 0, 5, 5⟩]).interpreter 1 = some ⟨1, none, 0, 0, 5, 5⟩) ∧
    (hall.setInterpreters ((List.range 96).map fun k => ⟨k + 1, none, 1, 1, 0, 0⟩)).interpreter 97 = none ∧
    ((hall.desk (at' 23 2)).state ≠ .vacant ∧
      (hall.setInterpreters [⟨1, some (at' 5 1), 0, 0, 5, 5⟩]).interpreter 1 = some ⟨1, some (at' 5 1), 0, 0, 5, 5⟩) ∧
    ((seat 0 0 (.ready 7) hall).canTake .booth ∧ ((seat 0 0 (.ready 7) hall).desk (at' 0 0)).state = .ready 7 ∧
      ∀ r ∈ (seat 0 0 (.ready 7) hall).request 0, r.requester ≠ 0) ∧
    (((seat 2 1 (.ready 7) hall).setRequest 2 (some ⟨1, .a, 99, 0⟩)).request 2 = some ⟨1, .a, 99, 0⟩) ∧
    (hall.desk (at' 23 2)).state = .live 65535 .a := by decide +kernel

/-- Desk 1/1 LIVE on program 1, as no MIC ON has left it: desk 1/2 is READY, and so is desk 3/1. -/
def onAir : State := liveOn 1 (at' 0 0) (seat 0 0 (.live 1201 .a) (seat 0 1 (.ready 1202) (seat 2 0 (.ready 3300) hall)))

theorem test_premises_DeskMovesChangeWhatTheirRulesSay :
    ((onAir.desk (at' 0 0)).state = .live 1201 .a ∧ (onAir.boothConfig 0).outputs.get .a = some 1) ∧
    ((onAir.desk (at' 0 1)).state = .ready 1202 ∧ (onAir.boothConfig 0).outputs.get .b = some 2) ∧
    (onAir.setRequest 0 (some ⟨1, .b, 99, 0⟩)).request 0 = some ⟨1, .b, 99, 0⟩ ∧
    (∀ r ∈ onAir.request 0, r.liveDesk ≠ 0) := by decide +kernel

theorem test_premises_MicOnTakesTheAir :
    (onAir.canTake .booth ∧ onAir.session.state = .live) ∧
    ((onAir.desk (at' 2 0)).state = .ready 3300 ∧ (onAir.boothConfig 2).outputs.get .b = some 4 ∧
      (onAir.program 4).liveDesk = some (at' 23 2) ∧ (at' 23 2).booth ≠ (at' 2 0).booth ∧
      (onAir.program 4).config.engagement = .override ∧ ∀ q, (onAir.desk ⟨2, q⟩).state.isLive = false) ∧
    ((onAir.desk (at' 0 1)).state = .ready 1202 ∧ (onAir.boothConfig 0).outputs.get .a = some 1 ∧
      (∀ e ∈ (onAir.program 1).liveDesk, e.booth = 0) ∧ (onAir.desk (at' 0 0)).state = .live 1201 .a ∧
      (∀ k, k ≠ 0 → (onAir.desk ⟨0, k⟩).state.isLive = false) ∧ onAir.request 0 = none ∧
      (onAir.boothConfig 0).mode = .immediate) ∧
    ((onAir.boothConfig 0).outputs.get .b = some 2 ∧ (∀ e ∈ (onAir.program 2).liveDesk, e.booth = 0) ∧
      Output.a ≠ .b) := by decide +kernel

/-- Desk 2/1 LIVE on program 3 in a NEGOTIATED booth, and desk 2/3 READY. -/
def negotiated : State := liveOn 3 (at' 1 0) (seat 1 0 (.live 5 .a) (seat 1 2 (.ready 6) hall))

theorem test_premises_MicOnAsksForANegotiatedHandover :
    negotiated.canTake .booth ∧ negotiated.session.state = .live ∧ (negotiated.desk (at' 1 2)).state = .ready 6 ∧
      (negotiated.boothConfig 1).outputs.get .b = some 1 ∧ (∀ e ∈ (negotiated.program 1).liveDesk, e.booth = 1) ∧
      (0 : Fin 3) ≠ 2 ∧ (negotiated.desk (at' 1 0)).state.isLive = true ∧
      (∀ k, k ≠ 0 → (negotiated.desk ⟨1, k⟩).state.isLive = false) ∧ negotiated.request 1 = none ∧
      (negotiated.boothConfig 1).mode = .negotiated := by decide +kernel

/-- `negotiated` with desk 2/3's request for an output; the deadline is at the end of the window. -/
def asked (o : Output) : State := negotiated.setRequest 1 (some ⟨2, o, 20000, 0⟩)

theorem test_premises_MicOnChecksRunInOrder :
    (base.canTake .operator ∧ Port.operator ≠ .booth ∧ 24 < (25#8).toNat ∧ 3 < (4#8).toNat ∧ (3#8).toNat ≠ 1 ∧
      (3#8).toNat ≠ 2) ∧
    (base.canTake .booth ∧ base.session.state ≠ .live) ∧ (hall.canTake .booth ∧ hall.session.state = .live) ∧
    (hall.desk (at' 0 0)).state = .vacant ∧
    ((hall.desk (at' 23 2)).state ≠ .vacant ∧ (hall.boothConfig 23).outputs.get .b = none) ∧
    ((hall.desk (at' 23 2)).state = .live 65535 .a ∧ (hall.boothConfig 23).outputs.get .a = some 4) ∧
    ((onAir.setBoothConfig 1 ⟨⟨some 1, none⟩, .immediate, 20, .force, 30⟩ |> seat 1 1 (.ready 9)).canTake .booth ∧
      (onAir.program 1).liveDesk = some (at' 0 0) ∧ (at' 0 0).booth ≠ 1 ∧
      (onAir.program 1).config.engagement = .interlock) ∧
    ((asked .b).canTake .booth ∧ ((asked .b).desk (at' 1 2)).state = .ready 6 ∧
      (asked .b).request 1 = some ⟨2, .b, 20000, 0⟩ ∧ ((asked .b).desk (at' 1 0)).state.isLive = true ∧
      ((seat 1 1 (.ready 8) (asked .b)).desk (at' 1 1)).state = .ready 8) := by decide +kernel

theorem test_premises_AReleaseDecidesByTheRequest :
    ((negotiated.desk (at' 1 0)).state = .live 5 .a ∧ (negotiated.boothConfig 1).outputs.get .a = some 3 ∧
      negotiated.request 1 = none) ∧
    ((asked .a).request 1 = some ⟨2, .a, 20000, 0⟩ ∧ ((asked .a).boothConfig 1).outputs.get .a = some 3) ∧
    (((asked .b).boothConfig 1).outputs.get .b = some 1 ∧ ((asked .b).program 1).liveDesk = none) ∧
    ((1 : Prog) ≠ 3 ∧ ((liveOn 1 (at' 0 0) (asked .b)).program 1).liveDesk = some (at' 0 0) ∧
      ((liveOn 1 (at' 0 0) (asked .b)).program 1).config.engagement = .interlock ∧
      ((program 1 .low .override (liveOn 1 (at' 0 0) (asked .b))).program 1).config.engagement = .override) := by
  decide +kernel

theorem test_premises_MicOffAndCancelEndTurnsAndRequests :
    ((onAir.canTake .booth ∧ (onAir.desk (at' 0 0)).state = .live 1201 .a) ∧
      ((asked .a).canTake .booth ∧ ((asked .a).desk (at' 1 2)).state = .ready 6 ∧
        (asked .a).request 1 = some ⟨2, .a, 20000, 0⟩) ∧
      (onAir.desk (at' 5 0)).state = .vacant ∧
      ((onAir.desk (at' 0 1)).state.isLive = false ∧ ∀ r ∈ onAir.request 0, r.requester ≠ 1)) ∧
    ((0#8).toNat = 0 ∧ 24 < (25#8).toNat ∧ 3 < (4#8).toNat) ∧ (base.canTake .hire ∧ Port.hire ≠ .booth) ∧
    base.request 23 = none := by decide +kernel

theorem test_premises_HandoverExpiryForcesOrLapses :
    (hall.request 2 = none ∧ ∀ r ∈ (later 19999 (asked .a)).request 1, 19999 < r.deadline) ∧
    ((later 900 (hall.setRequest 2 (some ⟨1, .b, 900, 0⟩))).powered = true ∧
      (later 900 (hall.setRequest 2 (some ⟨1, .b, 900, 0⟩))).request 2 = some ⟨1, .b, 900, 0⟩ ∧
      (hall.boothConfig 2).policy = .lapse) ∧
    ((later 20000 (asked .a)).powered = true ∧ (∃ r ∈ (later 20000 (asked .a)).request 1, r.deadline ≤ 20000) ∧
      ((asked .a).boothConfig 1).policy = .force ∧
      ((asked .a).desk (at' 1 0)).state = .live 5 .a ∧ ((asked .a).boothConfig 1).outputs.get .a = some 3) ∧
    ((1 : Prog) ≠ 3 ∧ ((liveOn 1 (at' 0 0) (asked .b)).program 1).liveDesk = some (at' 0 0) ∧
      ((liveOn 1 (at' 0 0) (asked .b)).program 1).config.engagement = .interlock ∧
      ((program 1 .low .override (liveOn 1 (at' 0 0) (asked .b))).program 1).config.engagement = .override) := by
  decide +kernel

theorem test_premises_SelectSourceRunsThePass :
    hall.canTake .booth ∧ (hall.desk (at' 0 0)).state = .vacant ∧ (hall.desk (at' 23 2)).state ≠ .vacant ∧
      ((4 : Source) ≠ 0 ∧ (hall.boothConfig 23).outputs.a = some 4) ∧
      ((31 : Source) ≠ 0 ∧ (hall.boothConfig 23).outputs.a ≠ some 31 ∧ (hall.boothConfig 23).outputs.b ≠ some 31 ∧
        (hall.program 31).config.configured = false) ∧
      ((hall.boothConfig 23).outputs.a ≠ some 1 ∧ (hall.boothConfig 23).outputs.b ≠ some 1 ∧
        (hall.program 1).config.configured = true) := by decide +kernel

/-- Programs 2 and 3 listen to each other: both lie on a loop. -/
def loop : State := chain.modifyDesk (at' 1 0) fun r => { r with selected := 3 }

theorem test_loop_onLoop : loop.onLoop 2 := by
  have h1 : loop.listensTo 2 3 := ⟨at' 1 0, by decide +kernel⟩
  have h2 : loop.listensTo 3 2 := ⟨at' 2 0, by decide +kernel⟩
  exact .tail (.single h1) h2

/-- In the chain, program 2 listens to program 1, whose live desk hears floor. -/
theorem test_chain_not_onLoop : ¬ chain.onLoop 2 := by
  intro h
  obtain ⟨c, ⟨d, hd, hs, hc⟩, hr⟩ := Relation.TransGen.head'_iff.mp h
  obtain rfl : at' 1 0 = d := Option.some.inj ((by decide +kernel : _ = some (at' 1 0)).symm.trans hd)
  obtain rfl : (1 : Source) = c := (by decide +kernel : (chain.desk (at' 1 0)).selected = 1).symm.trans hs
  obtain hr | ⟨c, ⟨d, hd, hs, hc⟩, -⟩ := hr.cases_head
  · exact absurd hr (by decide)
  · obtain rfl : at' 0 0 = d := Option.some.inj ((by decide +kernel : _ = some (at' 0 0)).symm.trans hd)
    exact hc (hs.symm.trans (by decide +kernel))

theorem test_premises_TheDerivationPassResolvesEveryLevel :
    ((chain.program 1).liveDesk = some (at' 0 0) ∧ (chain.desk (at' 0 0)).selected = 0) ∧
    ((chain.program 2).liveDesk = some (at' 1 0) ∧ (chain.desk (at' 1 0)).selected ≠ 0 ∧ ¬ chain.onLoop 2 ∧
      chain.deskProgram (at' 1 0) = some 2) ∧
    ((loop.program 2).liveDesk = some (at' 1 0) ∧ (loop.desk (at' 1 0)).selected ≠ 0 ∧ loop.onLoop 2 ∧
      loop.deskProgram (at' 1 0) = some 2) ∧
    (chain.desk (at' 5 1)).state.isLive = false ∧
    ((∀ p ∈ chain.deskProgram (at' 1 0), (chain.program p).liveDesk = some (at' 1 0)) ∧
      (chain.derivationPass.desk (at' 1 0)).feed ≠ 0) :=
  ⟨by decide +kernel, ⟨by decide +kernel, by decide +kernel, test_chain_not_onLoop, by decide +kernel⟩,
    ⟨by decide +kernel, by decide +kernel, test_loop_onLoop, by decide +kernel⟩, by decide +kernel, by decide +kernel⟩

/-- A state meets the law of the air when its desks, programs and requests do so one by one. -/
theorem airConsistent_of_rows (s : State) (h : (∀ b q, (match (s.desk ⟨b, q⟩).state with
      | .live _ o => ((s.boothConfig b).outputs.get o).elim false fun p => (s.program p).liveDesk = some ⟨b, q⟩
      | _ => true) = true) ∧
    (∀ p, ∀ d ∈ (s.program p).liveDesk, (match (s.desk d).state with
      | .live _ o => decide ((s.boothConfig d.booth).outputs.get o = some p)
      | _ => false) = true) ∧
    (∀ b q k, (s.desk ⟨b, q⟩).state.isLive = true → (s.desk ⟨b, k⟩).state.isLive = true → q = k) ∧
    s.session.state = .live ∧ s.startup = .done ∧ (∀ b, s.request b = none) ∧ s.floorFixed ∧ s.planner.hold = none) :
    s.airConsistent where
  desks := by
    rintro ⟨b, q⟩ id o h'
    have := h.1 b q
    rw [h'] at this
    cases hp : (s.boothConfig b).outputs.get o with
    | none => simp [hp] at this
    | some p =>
      simp only [hp, Option.elim_some, decide_eq_true_eq] at this
      exact ⟨p, rfl, this⟩
  programs := by
    intro p d h'
    have := h.2.1 p d h'
    split at this
    · next id o h' => exact ⟨id, o, h', of_decide_eq_true this⟩
    · cases this
  single := by
    rintro ⟨b, q⟩ ⟨c, k⟩ rfl hq hk
    rw [h.2.2.1 b q k hq hk]
  session := fun _ _ => h.2.2.2.1
  startup := fun h' => absurd h.2.2.2.2.1 h'
  requests := fun b r h' => absurd (h'.symm.trans (h.2.2.2.2.2.1 b)) nofun
  floor := h.2.2.2.2.2.2.1
  shadow := fun _ h' => absurd (h'.symm.trans h.2.2.2.2.2.2.2) nofun

/-- Desk 24/3 LIVE and desk 1/1 READY, each with its interpreter's entry; a third entry is at no desk. -/
def seated : State :=
  (seat 0 0 (.ready 1) hall).setInterpreters
    [⟨65535, some (at' 23 2), 9, 1, 0, 0⟩, ⟨1, some (at' 0 0), 0, 0, 7, 1⟩, ⟨2, none, 0, 0, 5, 1⟩]

theorem seated_seatsAgree : seated.seatsAgree where
  range := by decide +kernel
  unique := by decide +kernel
  present := by
    rintro ⟨b, q⟩ id h
    have := (by decide +kernel : ∀ b q, ∀ id ∈ (seated.desk ⟨b, q⟩).state.id?,
      ∃ e ∈ seated.booth.interpreters, e.id = id) b q id h
    exact this
  linked := by
    rintro e he ⟨b, q⟩
    exact (by decide +kernel : ∀ e ∈ seated.booth.interpreters, ∀ b q,
      (e.desk = some ⟨b, q⟩ ↔ (seated.desk ⟨b, q⟩).state.id? = some e.id)) e he b q
  startup := fun h => absurd (by decide +kernel) h

theorem test_premises_TheAirStaysConsistent :
    (queued onAir).airConsistent ∧ (∃ t, step (queued onAir) = .next t) ∧ seated.seatsAgree ∧
      ∃ t, step seated = .next t :=
  ⟨airConsistent_of_rows _ (by decide +kernel), ⟨_, rfl⟩, seated_seatsAgree, _, rfl⟩

/-- A plan hold, its shadow as given. -/
def held (f : Shadow → Shadow) (s : State) : State :=
  s.setHold (some (f ⟨s.programs.map (·.config), s.booth.configs.map (·.outputs)⟩))

/-- `hall` in SETUP, with nobody on the air. -/
def quiet : State := after (.endSession .operator []) hall

theorem test_premises_SetBoothWritesTheRecord :
    (hall.canTake .operator ∧ Outputs.legal ⟨some 1, some 31⟩ ∧ Outputs.legal ⟨none, none⟩ ∧ 255 < 256) ∧
    (hall.session.state ≠ .setup ∧ (⟨some 1, none⟩ : Outputs) ≠ hall.plannedOutputs 23) ∧
    (quiet.canTake .operator ∧ quiet.session.state = .setup ∧ (quiet.plannedConfig 31).configured = false) ∧
    (⟨some 4, none⟩ : Outputs) = hall.plannedOutputs 23 ∧
    ((∀ p, some 1 = some p ∨ some 2 = some p → (quiet.plannedConfig p).configured = true) ∧
      quiet.planner.hold = none ∧ (⟨some 1, some 2⟩ : Outputs) = (quiet.boothConfig 0).outputs ∧
      (⟨some 1, some 2⟩ : Outputs) ≠ (quiet.boothConfig 23).outputs) ∧
    ((held id quiet).canTake .operator ∧
      (held id quiet).planner.hold = some ⟨quiet.programs.map (·.config), quiet.booth.configs.map (·.outputs)⟩) ∧
    ((0 : Fin 24) = 0 ∧ ((chain.modifyDesk (at' 0 1) fun r => { r with selected := 1 }).desk (at' 0 1)).selected ≠ 0) := by
  simp only [Outputs.legal]
  decide +kernel

theorem test_premises_SetProgramWritesTheRecord :
    (hall.canTake .operator ∧ quiet.canTake .operator ∧ Label.legal ⟨0x41#8, 0x5A#8, 0x41#8⟩ ∧ Label.legal .default) ∧
    ((31 : Prog) ≠ 0 ∧ hall.session.state ≠ .setup ∧ true ≠ (hall.plannedConfig 31).configured) ∧
    (quiet.session.state = .setup ∧ (quiet.plannedConfig 4).configured = true ∧
      0 < ((quiet.modifyProgram 4 fun r => { r with demand := 1 }).program 4).demand) ∧
    ((quiet.plannedConfig 31).configured = false ∧ (quiet.program 4).demand = 0 ∧ quiet.planner.hold = none) ∧
    (held id quiet).planner.hold = some ⟨quiet.programs.map (·.config), quiet.booth.configs.map (·.outputs)⟩ ∧
    (true = (quiet.program 4).config.configured ∧ Priority.low = (quiet.program 4).config.priority ∧
      Quality.high = (quiet.program 4).config.quality) ∧
    ((quiet.program 31).config.configured = false ∧ Priority.high ≠ (quiet.program 4).config.priority) ∧
    ((⟨some 4, some 5⟩ : Outputs).clear 4 = ⟨some 5, none⟩ ∧ (⟨some 4, some 5⟩ : Outputs).clear 5 = ⟨some 4, none⟩ ∧
      (⟨some 4, some 4⟩ : Outputs).clear 4 = ⟨none, none⟩ ∧ (⟨some 4, some 5⟩ : Outputs).clear 6 = ⟨some 4, some 5⟩) := by
  simp only [Label.legal]
  decide +kernel

theorem test_premises_PlanHoldAndReleaseApplyTheShadow :
    (base.canTake .booth ∧ Port.booth ≠ .operator) ∧
    (quiet.canTake .operator ∧ quiet.planner.hold = none) ∧ ((held id quiet).canTake .operator ∧
      (held id quiet).planner.hold ≠ none) ∧
    (let s := held (fun h => { h with programs := h.programs.set 4 { h.programs.get 4 with configured := false } })
      (quiet.modifyProgram 4 fun r => { r with demand := 1 })
     s.canTake .operator ∧ ∃ h ∈ s.planner.hold, (s.program 4).config.configured = true ∧
      (h.programs.get 4).configured = false ∧ 0 < (s.program 4).demand ∧
      ∀ q < 4, (s.program q).config.configured = true → (h.programs.get q).configured = false →
        (s.program q).demand = 0) ∧
    ∃ h ∈ (held id quiet).planner.hold, ∀ p, ((held id quiet).program p).config.configured = true →
      (h.programs.get p).configured = false → ((held id quiet).program p).demand = 0 := by decide +kernel

theorem test_premises_PlanAbandonDiscardsTheShadow :
    (base.canTake .hire ∧ Port.hire ≠ .operator) ∧ ((held id quiet).canTake .operator ∧
      (held id quiet).planner.hold ≠ none) ∧ quiet.planner.hold = none ∧
    ∃ h ∈ (held id quiet).planner.hold, ∀ p, ((held id quiet).program p).config.configured = true →
      (h.programs.get p).configured = false → ((held id quiet).program p).demand = 0 := by decide +kernel

/-- Bank 0 is current, and the lines have shown 7 since the timebase read 100. -/
def debouncing : State := { base with planner := { base.planner with lines := 7, candidate := some (7, 100) } }

theorem test_premises_BanksFollowBudgetsAndHealthLines :
    (base.canTake .operator ∧ 255 < 256 ∧ (7 : Fin 8) ≠ base.planner.bank ∧
      min 32 4 = base.planner.budgets.get base.planner.bank ∧ min 32 33 ≠ base.planner.budgets.get base.planner.bank) ∧
    (0 = base.planner.lines ∧ (7 : Fin 8) ≠ base.planner.lines ∧ base.powered = true ∧ base.resetAsserted = false ∧
      (after .externalReset base).resetAsserted = true ∧ (7 : Fin 8) ≠ (after .externalReset base).planner.lines) ∧
    (base.planner.candidate = none ∧ (∀ c ∈ (later 599 debouncing).planner.candidate, 599 < c.2 + 500)) ∧
    ((later 600 debouncing).powered = true ∧ (later 600 debouncing).resetAsserted = false ∧
      (later 600 debouncing).planner.candidate = some (7, 100) ∧ 100 + 500 ≤ (later 600 debouncing).now ∧
      debouncing.startup = .done ∧ { debouncing with startup := .checking }.startup ≠ .done) := by decide +kernel

theorem test_premises_TheAllocationPassFollowsTheClasses :
    ((panel.get 31).config.configured = false ∧ (allocate panel 16).get 1 = some .high) ∧
    ((panel.get 1).config.configured = true ∧ (panel.get 1).config.priority = .critical) ∧
    ((startCarriage panel).total ≤ 24 ∧ 16 < (startCarriage panel).total) ∧
    ((panel.get 14).config.priority = (panel.get 8).config.priority ∧ (allocate panel 16).get 14 = none ∧
      (allocate panel 16).get 8 ≠ none) ∧
    ((panel.get 3).config.priority = .high ∧ (allocate panel 8).get 3 ≠ some (panel.get 3).config.quality ∧
      (panel.get 4).config.priority = .low) ∧
    ((panel.get 1).config.priority = .critical ∧ (allocate panel 2).get 1 ≠ some (panel.get 1).config.quality ∧
      (panel.get 2).config.priority ≠ .critical) ∧
    ((panel.get 3).config.quality = .high ∧ (panel.get 3).config.priority = (panel.get 2).config.priority ∧
      (allocate panel 8).get 3 = some .standard ∧ (allocate panel 8).get 2 = some .high) := by decide +kernel

/-- The hall of spec/04 after the panel has failed: 16 slots carried of 16. -/
def failed : State := after .debounceExpiry { base with
  now := 4000500
  programs := panel
  planner := { base.planner with bank := 5, lines := 3, candidate := some (3, 4000000) } }

theorem test_premises_TheCarriedProgramsFitTheBudget :
    (queued failed).carriedFits ∧ (queued failed).startup = .done ∧ (queued failed).carriedSlots = (queued failed).budget ∧
      ∃ t, step (queued failed) = .next t :=
  ⟨fun _ => .inl (by decide +kernel), by decide +kernel, by decide +kernel, _, rfl⟩

/-- An IDLE link with READY asserted and the keys given. -/
def linkWith (plan : Bool) (programs : Table Bool 32) (desks : Table Bool 72) : State :=
  { base with link := { base.link with ready := true, planKey := plan, programKeys := programs, deskKeys := desks } }

theorem test_premises_TheLinkSendsWhatItsKeysName :
    ((linkWith true (.replicate 32 true) (.replicate 72 true)).pending = [] ∧
      (linkWith true (.replicate 32 true) (.replicate 72 true)).link.anyPending = true) ∧
    ((linkWith true (.replicate 32 true) (.replicate 72 true)).powered = true ∧
      (linkWith true (.replicate 32 true) (.replicate 72 true)).link.phase = .idle ∧
      (linkWith true (.replicate 32 true) (.replicate 72 true)).link.ready = true) ∧
    (let k := (Table.replicate 32 false).set 31 true
     k.get 31 = true ∧ ∀ q < 31, k.get q = false) ∧
    (let k := (Table.replicate 72 false).set 71 true
     k.get (at' 23 2).idx = true ∧ ∀ e : DeskId, e.idx < (at' 23 2).idx → k.get e.idx = false) ∧
    (linkWith false (.replicate 32 false) (.replicate 72 false)).link.anyPending = false ∧
    ((after .readyAssert base).powered = true ∧
      (after .readyAssert base).link.phase = .sending (.plan 0 4 [(0, .standard)]) ∧
      (after .readyAssert base).link.ready = true ∧ (after .readyDeassert (after .readyAssert base)).link.ready = false) := by
  refine ⟨by decide +kernel, by decide +kernel, by decide +kernel, ⟨by decide +kernel, fun e h => ?_⟩, by decide +kernel, by decide +kernel⟩
  exact (by decide +kernel : ∀ i : Fin 72, i < (at' 23 2).idx → ((Table.replicate 72 false).set 71 true).get i = false) _ h

theorem test_premises_TheStallWatchAndResyncRunOnTheKeys :
    (base.powered = true ∧ base.canTake .operator) ∧ ((after .readyDeassert base).link.stallSince = some 0 ∧
      (after .readyDeassert base).link.episode = false ∧ (after .readyDeassert base).powered = true) ∧
    ((later 2000 (after .readyDeassert base)).link.stallSince = some 0 ∧ 0 + 2000 ≤ (later 2000 base).now) ∧
    (let s := after .stallWatchExpiry (later 2000 (after .readyDeassert base))
     s.link.episode = true ∧ s.link.stallSince = some 0 ∧ s.powered = true) := by decide +kernel

theorem test_premises_ReceiversAreEnrolledWithdrawnAndDeleted :
    (counter.canTake .operator ∧ ∃ r ∈ counter.registry.receivers, r.number = 65535) ∧
    ((∀ r ∈ counter.registry.receivers, r.number ≠ 65534) ∧
      (∃ l, 2048 ≤ (base.setReceivers l).registry.receivers.length ∧
        ∀ r ∈ (base.setReceivers l).registry.receivers, r.number ≠ 1)) ∧
    (counter.registry.receivers = counter.registry.receivers.take 4 ++ counter.registry.receivers.drop 4 ∧
      (∀ r ∈ counter.registry.receivers.take 4, r.number < 258) ∧
      (∀ r ∈ counter.registry.receivers.drop 4, 258 < r.number)) ∧
    (counter.receiver 65534 = none ∧ (counter.receiver 1).map (·.state) = some .ready ∧
      (counter.receiver 2).map (·.state) = some .charging ∧ (counter.receiver 3).map (·.state) = some .onHire ∧
      (counter.receiver 4).map (·.state) = some .withdrawn ∧ (counter.receiver 65535).map (·.state) = some .lost ∧
      (counter.receiver 4).bind (·.slot) = some 511 ∧ (counter.receiver 65535).bind (·.slot) = none) ∧
    (∃ r ∈ counter.receiver 1, r.mark = true) ∧ ∀ r ∈ counter.receiver 2, r.mark = false := by
  refine ⟨by decide +kernel, ⟨by decide +kernel, ?_⟩, by decide +kernel⟩
  exact ⟨List.replicate 2048 ⟨7, .ready, none, none, none, 0, false⟩, by decide +kernel, fun r h => by
    rw [List.eq_of_mem_replicate (show r ∈ List.replicate 2048 _ from h)]; decide⟩

/-- Receiver 4 WITHDRAWN with other slots and batteries. -/
def withdrawn (slot : Option (Fin 512)) (battery : Option Nat) : State :=
  base.setReceivers [⟨4, .withdrawn, none, battery, slot, 0, false⟩]

theorem test_premises_ReinstateReceiverPutsItBackIntoUse :
    (counter.canTake .operator ∧ counter.receiver 5 = none ∧ ∃ r ∈ counter.receiver 65535, r.state ≠ .withdrawn) ∧
    ((withdrawn none none).canTake .operator ∧
      ∃ r ∈ (withdrawn none none).receiver 4, r.state = .withdrawn ∧ r.slot = none) ∧
    (∃ r ∈ counter.receiver 4, r.state = .withdrawn ∧ r.slot ≠ none ∧
      ∃ b ∈ r.battery, counter.registry.threshold ≤ b) ∧
    ((withdrawn (some 0) (some 79)).canTake .operator ∧ ∃ r ∈ (withdrawn (some 0) (some 79)).receiver 4,
      r.state = .withdrawn ∧ r.slot ≠ none ∧ ∀ b ∈ r.battery, b < 80) ∧
    ∃ r ∈ (withdrawn (some 0) none).receiver 4, r.slot ≠ none ∧ ∀ b ∈ r.battery, b < 80 := by decide +kernel

theorem test_premises_BatteriesPlaceRackedReceivers :
    (counter.canTake .operator ∧ 255 < 256 ∧ 20 = max 20 (min 100 0) ∧ 100 = max 20 (min 100 255)) ∧
    (counter.canTake .hire ∧ counter.receiver 65534 = none ∧ (counter.receiver 65535).isSome = true) := by decide +kernel

/-- The map and the records of `counter` agree. -/
theorem counter_rackMapAgrees : counter.rackMapAgrees := by
  refine ⟨by decide +kernel, fun k n => ⟨fun h => ?_, ?_⟩⟩
  · have hm : (some n, k.val) ∈ counter.registry.slots.rows.zipIdx := by
      rw [List.mem_zipIdx_iff_getElem?, ← h]
      simp [Table.get]
    obtain ⟨r, hr, hn, hk⟩ := (by decide +kernel : ∀ x ∈ counter.registry.slots.rows.zipIdx, ∀ n ∈ x.1,
      ∃ r ∈ counter.registry.receivers, r.number = n ∧ r.slot.map (·.val) = some x.2) _ hm n rfl
    obtain ⟨k', hk', hv⟩ := Option.map_eq_some_iff.mp hk
    exact ⟨r, hr, hn, hk'.trans (congrArg some (Fin.ext hv))⟩
  · rintro ⟨r, hr, rfl, hk⟩
    exact (by decide +kernel : ∀ r ∈ counter.registry.receivers, ∀ k ∈ r.slot,
      counter.registry.slots.get k = some r.number) r hr k hk

theorem test_premises_RackEventsSeatAndFree :
    ((∃ r ∈ counter.receiver 3, r.slot = none) ∧ ∃ r ∈ counter.receiver 4, r.slot = some 511) ∧
    counter.rackMapAgrees ∧ counter.canTake .hire ∧ 255 < 256 ∧ counter.receiver 65534 = none ∧
    (∃ r ∈ counter.receiver 65535, r.state = .lost ∧ r.state ≠ .onHire) ∧ (∃ r ∈ counter.receiver 3, r.state = .onHire) ∧
    (counter.registry.slots.get 510 = none ∧ counter.registry.slots.get 1 = some 2) ∧
    (counter.registry.slots.get 0 = some 1 ∧ 1 ≠ 2 ∧ ∃ q ∈ counter.receiver 1, q.state = .ready) ∧
    (counter.registry.slots.get 511 = some 4 ∧
      ∃ q ∈ counter.receiver 4, q.state ≠ .ready ∧ q.state ≠ .charging) :=
  ⟨by decide +kernel, counter_rackMapAgrees, by decide +kernel⟩

theorem test_premises_TheRackMapAgreesWithTheRecords :
    (queued counter).rackMapAgrees ∧ ∃ t, step (queued counter) = .next t :=
  ⟨counter_rackMapAgrees, _, rfl⟩

theorem test_premises_TheStocktakeMarksEndsAndExpires :
    (counter.canTake .hire ∧ counter.registry.stocktake.running = true) ∧
    (base.canTake .hire ∧ base.registry.stocktake.running = false ∧ base.powered = true) ∧
    ((∃ r ∈ counter.registry.receivers, r.mark = true ∧ r.slot = some 0) ∧
      ∀ r ∈ counter.registry.receivers, r.mark = true → r.slot ≠ some 511) ∧
    ((later 300000 counter).powered = true ∧ (later 300000 counter).registry.stocktake.deadline = some 300000 ∧
      300000 ≤ (later 300000 counter).now) := by decide +kernel

/-! ### Premises: hires, charges, session and power -/

theorem test_premises_OpenHireCreatesTheRecord :
    (counter.canTake .hire ∧ 16777215 < 2 ^ 24 ∧ [1, 65535].length ≤ 8 ∧ ∀ n ∈ [1, 65535], 1 ≤ n ∧ n ≤ 65535) ∧
    (counter.setClock ⟨0, 0⟩ false).session.valid = false ∧ counter.session.valid = true ∧
    (∃ l, 512 ≤ (base.setHires l).hires.records.length) ∧ counter.hires.records.length < 512 ∧
    (counter.badgeHire 999999).isSome = true ∧ (∀ h ∈ counter.hires.records, h.badge ≠ 1) ∧
    ((counter.program 31).config.configured = false ∧ (counter.program 0).config.configured = true) ∧
    ([1].Nodup ∧ (∀ n ∈ [1], ∃ r ∈ counter.receiver n, r.state = .ready)) ∧
    (counter.receiver 65534 = none ∧ (∃ r ∈ counter.receiver 2, r.state ≠ .ready) ∧
      [1, 1, 65534] = [1] ++ 1 :: [65534] ∧ 1 ∈ [1]) ∧
    (1 ≤ (counter.setHireCounter 7).hires.counter ∧ (counter.setHireCounter 7).hires.counter ≤ 9999) ∧
    (nextHireNumber^[1] 7 = 8 ∧ (∀ h ∈ counter.hires.records, h.number ≠ 8) ∧
      (∀ j < 1, ∃ h ∈ counter.hires.records, h.number = nextHireNumber^[j] 7) ∧
      counter.hires.records = counter.hires.records ++ [] ∧ ∀ h ∈ counter.hires.records, h.number < 8) := by
  refine ⟨by decide +kernel, by decide +kernel, by decide +kernel, ?_, by decide +kernel⟩
  exact ⟨List.replicate 512 ⟨1, .opened, 1, 0, 0, none, ⟨0, 0⟩, false, false, none, none, [], none⟩, by decide +kernel⟩

theorem test_premises_IssueReturnAndWriteOffChangeWhatTheirRulesSay :
    (∃ r ∈ counter.receiver 3, r.slot = none) ∧ ∃ r ∈ counter.receiver 4, r.slot = some 511 := by decide +kernel

/-- `counter` with hire 7 changed, and hire 9999 SETTLING at closing position 1. -/
def desk7 (f : Hire → Hire) : State :=
  (counter.setHires (counter.hires.records ++ [⟨9999, .settling, 5, 7, 0, none, ⟨0, 0⟩, false, false, some ⟨0, 5⟩, some 1,
    [⟨65535, .lost, none, 0, none, none⟩], some ⟨[⟨65535, .lost, 0, 0, 0, 9⟩], 9, -9⟩⟩])).modifyHire 7 f

theorem test_premises_LinesAreAddedReturnedLostAndMoved :
    ((desk7 id).canTake .operator ∧ Port.operator ≠ .hire ∧ 10000 < 2 ^ 16 ∧ 9999 < 10000 ∧ 31 < (32#8).toNat) ∧
    ((desk7 id).canTake .hire ∧ (desk7 id).hire 9998 = none ∧ ((desk7 id).hire 9999).map (·.state) = some .settling ∧
      ((desk7 id).hire 7).map (·.state) = some .opened) ∧
    ((desk7 fun h => { h with lines := List.replicate 8 ⟨3, .out, some 0, 0, none, none⟩ }).hire 7).map
      (·.lines.length) = some 8 ∧
    ((desk7 id).hire 7).map (·.lines.length) = some 1 ∧
    ((desk7 id).receiver 65534 = none ∧ (∃ r ∈ (desk7 id).receiver 65535, r.state ≠ .ready) ∧
      ∃ r ∈ (desk7 id).receiver 1, r.state = .ready) ∧
    (((desk7 id).hire 7).bind fun h => h.lines.findIdx? fun l => l.receiver == 65535 && l.state == .out) = none ∧
    (((desk7 id).hire 7).bind fun h => h.lines.findIdx? fun l => l.receiver == 3 && l.state == .out) = some 0 ∧
    (∃ r ∈ (desk7 id).receiver 3, r.state = .onHire ∧ r.hire = some 7) ∧
    (∃ r ∈ (desk7 id).receiver 65535, r.state = .lost) ∧
    (((desk7 id).program 31).config.configured = false ∧ ((desk7 id).program 0).config.configured = true ∧
      ((desk7 id).hire 7).bind (·.preset) = some 0 ∧ (none : Option Prog) ≠ some 0) := by decide +kernel

/-- Receiver 3 is out on hire 7's one OUT line, and every receiver's fields fit its state. -/
theorem desk7_linesAgree : (queued (desk7 id)).linesAgree where
  order := by decide +kernel
  fits := by decide +kernel
  onHire := by decide +kernel
  out := by decide +kernel

theorem test_premises_DemandCountsTheOutLines :
    (queued (desk7 id)).demandCounted ∧ (queued (desk7 id)).linesAgree ∧ ∃ t, step (queued (desk7 id)) = .next t := by
  refine ⟨?_, desk7_linesAgree, _, rfl⟩
  unfold State.demandCounted
  decide +kernel

/-- `desk7` with every line of hire 7 returned, and with a full settlement queue. -/
def backlog : State :=
  (desk7 fun h => { h with lines := [⟨3, .returned, some 0, 0, some ⟨0, 0⟩, some 0⟩] }).setQueue
    (List.replicate 64 ⟨5, 6, 0, 7, ⟨0, 0⟩, ⟨0, 1⟩, false, true, ⟨[], 5, 2⟩⟩)

theorem test_premises_HiresCloseAndSettlementsAreTaken :
    (∃ h ∈ counter.hire 7, h.number = 7 ∧ h.lines.any (fun l => l.state == .out) = true) ∧
    (∃ h ∈ backlog.hire 7, h.number = 7 ∧ h.lines.any (fun l => l.state == .out) = false) ∧
    (64 ≤ backlog.settlement.queue.length ∧ (backlog.setQueue []).settlement.queue = [] ∧
      (backlog.setQueue (backlog.settlement.queue.take 63)).settlement.queue ≠ [] ∧
      (backlog.setQueue (backlog.settlement.queue.take 63)).settlement.queue.length < 64) ∧
    (base.canTake .hire ∧ base.settlement.queue = []) ∧ (backlog.canTake .hire ∧
      backlog.settlement.queue = ⟨5, 6, 0, 7, ⟨0, 0⟩, ⟨0, 1⟩, false, true, ⟨[], 5, 2⟩⟩ :: backlog.settlement.queue.drop 1) ∧
    (∀ h ∈ (base.setQueue backlog.settlement.queue).hires.records, h.state = .settling → h.closingPos ≠ some 1) ∧
    (∃ h ∈ backlog.hires.records, h.state = .settling ∧ h.closingPos = some 1 ∧ h.account.isSome = true ∧
      h.closedAt = some ⟨0, 5⟩ ∧
      ∀ g ∈ backlog.hires.records, g.state = .settling → g.closingPos = some 1 → g = h) ∧
    backlog.hires.records.Pairwise (fun x y => x.number < y.number) := by decide +kernel

theorem test_premises_AccountsFollowTheChargeStages :
    (Line.mk 1 .returned (some 52000) 0 (some ⟨3, 32700⟩) (some 56210)).state = .returned ∧
    (Line.mk 1 .lost none 0 none none).state = .lost ∧
    ((⟨120, 1440, 65535, 1000000, 1000000, 240⟩ : Tariff).inRange ∧ (⟨0, 1, 0, 0, 0, 1⟩ : Tariff).inRange ∧
      ∃ h ∈ counter.hire 7, h.lines.length ≤ 8 ∧ h.deposit ≤ 1000000) := by decide +kernel

theorem test_premises_SessionCommandsChangeTheState :
    (base.canTake .hire ∧ Port.hire ≠ .operator) ∧
    (base.canTake .operator ∧ base.session.state = .setup ∧ base.planner.hold = none ∧ (held id quiet).canTake .operator ∧
      (held id quiet).session.state = .setup ∧ (held id quiet).planner.hold ≠ none) ∧
    (hall.canTake .operator ∧ hall.session.state = .live) ∧
    ((hall.setSession .recess).canTake .operator ∧ (hall.setSession .recess).session.state = .recess) ∧
    onAir.airConsistent :=
  ⟨by decide +kernel, by decide +kernel, by decide +kernel, by decide +kernel,
    airConsistent_of_rows _ (by decide +kernel)⟩

theorem test_premises_ClockIsLoadedAndDayIsClosed :
    (counter.canTake .operator ∧ 65535 < 2 ^ 16 ∧ 16777215 < 2 ^ 24 ∧
      (∀ h ∈ counter.hires.records, h.state = .opened → h.openedAt.abs ≤ (⟨0, 0⟩ : HallTime).abs)) ∧
    (let s := counter.modifyHire 7 fun h => { h with openedAt := ⟨0, 10⟩ }
     s.canTake .operator ∧ ∃ h ∈ s.hires.records, h.state = .opened ∧ (⟨0, 9⟩ : HallTime).abs < h.openedAt.abs ∧
      ∀ g ∈ s.hires.records, g.state = .opened → g.openedAt.abs < h.openedAt.abs ∨
        (g.openedAt.abs = h.openedAt.abs ∧ h.number ≤ g.number)) ∧
    (hall.canTake .operator ∧ hall.session.state = .live ∧ base.session.state ≠ .live) := by decide +kernel

theorem test_premises_TicksCountAndTheirLossIsRaised :
    ((after .mainPowerLoss hall).powered = false ∧ State.reset.startup = .checking) ∧
    ((after .externalReset hall).powered = true ∧ (after .externalReset hall).startup = .external) ∧
    (counter.powered = true ∧ counter.startup = .done ∧
      counter.hires.records.Pairwise (fun a b => a.number < b.number)) ∧
    (base.session.tickLost = false ∧ base.session.tickSince + 3000 ≤ (later 3000 base).now ∧
      (later 2999 base).now < base.session.tickSince + 3000 ∧
      (after .tickWatchExpiry (later 3000 base)).session.tickLost = true ∧
      (after .tickWatchExpiry (later 3000 base)).powered = true) := by decide +kernel

/-- A check that finds the marker set and every word in agreement. -/
def warm : State := { State.reset with retention := ⟨true, .replicate 10 true⟩ }

/-- A check that finds the marker set and group 4's word failing. -/
def failing : State := { State.reset with retention := ⟨true, (Table.replicate 10 true).set 3 false⟩ }

theorem test_premises_PowerAndResetKeepOrReplaceTheRetainedDomain :
    ((after .mainPowerLoss hall).powered = false ∧ hall.powered = true ∧ hall.resetAsserted = false ∧
      hall.startup ≠ .checking) ∧
    (State.reset.powered = true ∧ State.reset.resetAsserted = false ∧ State.reset.startup = .checking ∧
      State.reset.retention.failedGroup = some 0) ∧
    (warm.powered = true ∧ warm.resetAsserted = false ∧ warm.startup = .checking ∧ warm.retention.failedGroup = none) ∧
    (failing.powered = true ∧ failing.resetAsserted = false ∧ failing.startup = .checking ∧
      failing.retention.failedGroup = some 4 ∧ failing.faults.severeSeen = false ∧
      ∀ f ∈ failing.faults.held, f.1.severe = false) ∧
    ((after .externalReset warm).resetAsserted = true ∧ (after .externalReset warm).powered = true ∧
      (after .externalReset warm).startup = .checking ∧ (after .externalReset hall).resetAsserted = true ∧
      (after .externalReset hall).powered = true ∧ (after .externalReset hall).startup = .external) := by decide +kernel

end Sys2Proof.Tests
end

section
/-! SUPPORT. Scope, bounds: what every operation, every command's body and every event keeps of the queues, the masks, the
tables' capacities, the port's checks on waiting requests and the timebase (R1, R7, R92, R113, R144, R165 to R169, R174,
R176). `State.Within s t` says that these bounds pass from `s` to `t`; there is one rule per operation, the rules chain by
dot notation, and `step_within` says it of a step. -/

namespace Sys2Proof.Machine

/-! ### Bounds that pass from one state to another -/

/-- The bounds of queues, masks and tables, the port's checks on waiting requests and the range of the timebase all
pass from `s` to `t`. -/
structure State.Within (s t : State) : Prop where
  ports : s.portsOk → t.portsOk
  tables : s.tablesOk → t.tablesOk
  waiting : s.waitingPassed → t.waitingPassed
  now : s.now ≤ 2 ^ 64 - 1 → t.now ≤ 2 ^ 64 - 1

theorem State.Within.refl (s : State) : s.Within s := ⟨id, id, id, id⟩

theorem State.Within.trans {s t u : State} (h : s.Within t) (k : t.Within u) : s.Within u :=
  ⟨k.ports ∘ h.ports, k.tables ∘ h.tables, k.waiting ∘ h.waiting, k.now ∘ h.now⟩

theorem State.portsOk_iff (s : State) : s.portsOk ↔ ∀ p, (s.port p).ok p :=
  ⟨fun ⟨hb, hh, ho⟩ p => by cases p <;> assumption, fun h => ⟨h .booth, h .hire, h .operator⟩⟩

/-- The port's checks read the start-up state and the request alone (R169). -/
theorem State.portCheck_congr {s t : State} (h : t.startup = s.startup) : t.portCheck = s.portCheck := by
  funext p code params
  unfold State.portCheck State.starting
  rw [h]

/-- An update that leaves the ports, the start-up state and the timebase, and keeps the tables' capacities. -/
theorem State.Within.of_tables {s t : State} (hp : t.ports = s.ports) (hs : t.startup = s.startup) (hn : t.now = s.now)
    (ht : s.tablesOk → t.tablesOk) : s.Within t := by
  have port : t.port = s.port := by funext p; unfold State.port; rw [hp]
  refine ⟨fun h => ?_, ht, fun h => ?_, fun h => hn ▸ h⟩
  · rw [State.portsOk_iff, port]; exact (State.portsOk_iff s).mp h
  · intro p r hr
    rw [port] at hr
    rw [State.portCheck_congr hs]
    exact h p r hr

/-- Port `p` replaced by one that keeps its bounds and whose slot holds no request but the old one or one that passes
the port's checks. -/
theorem State.within_setPort (s : State) (p : Port) (v : PortState) (hok : (s.port p).ok p → v.ok p)
    (hr : ∀ r, v.request = some r → (s.port p).request = some r ∨ s.portCheck p r.code r.params = none) :
    s.Within (s.setPort p v) where
  ports h := by
    rw [State.portsOk_iff] at h ⊢
    intro q
    by_cases e : q = p
    · subst e; rw [State.setPort_port]; exact hok (h q)
    · rw [State.setPort_port_other _ _ _ _ e]; exact h q
  tables h := by simpa [State.tablesOk] using h
  waiting h := by
    intro q r hq
    rw [State.portCheck_congr (s.setPort_startup p v)]
    by_cases e : q = p
    · subst e
      rw [State.setPort_port] at hq
      exact (hr r hq).elim (h q r) id
    · rw [State.setPort_port_other _ _ _ _ e] at hq; exact h q r hq
  now h := by simpa using h

/-- Port `p` changed in its answer, its notices and its flag alone. -/
theorem State.within_setPort_notices (s : State) (p : Port) (v : PortState)
    (hq : v.queue.length ≤ max 16 (s.port p).queue.length) (hm : v.mask = (s.port p).mask) (hr : v.request = (s.port p).request) : s.Within (s.setPort p v) := by
  refine s.within_setPort p v (fun ⟨h, k⟩ => ⟨?_, hm ▸ k⟩) fun r h => .inl (hr ▸ h)
  omega

section writes
variable {s t : State} (h : s.Within t)
include h

theorem State.Within.modifyDesk {d f} : s.Within (t.modifyDesk d f) := h.trans ⟨id, id, id, id⟩
theorem State.Within.setDeskState {d x} : s.Within (t.setDeskState d x) := h.modifyDesk
theorem State.Within.setBoothConfig {b c} : s.Within (t.setBoothConfig b c) := h.trans ⟨id, id, id, id⟩
theorem State.Within.setRequest {b r} : s.Within (t.setRequest b r) := h.trans ⟨id, id, id, id⟩
theorem State.Within.modifyProgram {p f} : s.Within (t.modifyProgram p f) := h.trans ⟨id, id, id, id⟩
theorem State.Within.loseLive {p c} : s.Within (t.loseLive p c) := h.modifyProgram
theorem State.Within.writePrograms {f} : s.Within (t.writePrograms f) := h.trans ⟨id, id, id, id⟩
theorem State.Within.setProgConfig {p c} : s.Within (t.setProgConfig p c) := h.trans ⟨id, id, id, id⟩
theorem State.Within.setSlot {k v} : s.Within (t.setSlot k v) := h.trans ⟨id, id, id, id⟩
theorem State.Within.setStocktake {k} : s.Within (t.setStocktake k) := h.trans ⟨id, id, id, id⟩
theorem State.Within.setHireCounter {n} : s.Within (t.setHireCounter n) := h.trans ⟨id, id, id, id⟩
theorem State.Within.setTariff {k x} : s.Within (t.setTariff k x) := h.trans ⟨id, id, id, id⟩
theorem State.Within.setClock {x v} : s.Within (t.setClock x v) := h.trans ⟨id, id, id, id⟩
theorem State.Within.setRestart {n c} : s.Within (t.setRestart n c) := h.trans ⟨id, id, id, id⟩
theorem State.Within.restartTickWatch : s.Within t.restartTickWatch := h.trans ⟨id, id, id, id⟩
theorem State.Within.setSession {x} : s.Within (t.setSession x) := h.trans ⟨id, id, id, id⟩
theorem State.Within.modifyCounters {f} : s.Within (t.modifyCounters f) := h.trans ⟨id, id, id, id⟩
theorem State.Within.updateLink {f} : s.Within (t.updateLink f) := h.trans ⟨id, id, id, id⟩
theorem State.Within.setHold {x} : s.Within (t.setHold x) := h.trans ⟨id, id, id, id⟩
theorem State.Within.setBudget {k v} : s.Within (t.setBudget k v) := h.trans ⟨id, id, id, id⟩
theorem State.Within.writeThreshold {v} : s.Within (t.writeThreshold v) := h.trans ⟨id, id, id, id⟩
theorem State.Within.setDay {d c x} : s.Within (t.setDay d c x) := h.trans ⟨id, id, id, id⟩
theorem State.Within.withFaults {c} : s.Within (t.withFaults c) := h.trans ⟨id, id, id, id⟩

/-- The interpreter table written with no more entries than stood or than it holds (R7). -/
theorem State.Within.setInterpreters {l} (hl : l.length ≤ max 96 t.booth.interpreters.length) :
    s.Within (t.setInterpreters l) :=
  h.trans ⟨id, fun ⟨a, b, c, d⟩ => ⟨a, b, c, by dsimp; omega⟩, id, id⟩

/-- The receiver records written, no more than stood or than the registry holds (R92). -/
theorem State.Within.setReceivers {l} (hl : l.length ≤ max 2048 t.registry.receivers.length) :
    s.Within (t.setReceivers l) :=
  h.trans ⟨id, fun ⟨a, b, c, d⟩ => ⟨a, b, by dsimp; omega, d⟩, id, id⟩

/-- The hire records written, no more than stood or than the table holds (R113). -/
theorem State.Within.setHires {l} (hl : l.length ≤ max 512 t.hires.records.length) : s.Within (t.setHires l) :=
  h.trans ⟨id, fun ⟨a, b, c, d⟩ => ⟨by dsimp; omega, b, c, d⟩, id, id⟩

/-- The settlement queue written, with no more records than stood or than it holds (R144). -/
theorem State.Within.setQueue {l} (hl : l.length ≤ max 64 t.settlement.queue.length) : s.Within (t.setQueue l) :=
  h.trans ⟨id, fun ⟨a, b, c, d⟩ => ⟨a, by dsimp; omega, c, d⟩, id, id⟩

theorem State.Within.modifyInterpreter {n f} : s.Within (t.modifyInterpreter n f) := h.setInterpreters (by simp)
theorem State.Within.modifyReceiver {n f} : s.Within (t.modifyReceiver n f) := h.setReceivers (by simp)
theorem State.Within.setReceiverState {n x} : s.Within (t.setReceiverState n x) := h.modifyReceiver
theorem State.Within.modifyHire {n f} : s.Within (t.modifyHire n f) := h.setHires (by simp)
theorem State.Within.removeHire {n} : s.Within (t.removeHire n) :=
  h.setHires ((List.length_filter_le ..).trans (Nat.le_max_right ..))

end writes

/-! ### Notices, faults and passes -/

section notices
variable {s t : State} (h : s.Within t)
include h

theorem State.Within.offer {p n} : s.Within (t.offer p n).1 := by
  rcases t.offer_cases p n with ⟨-, e⟩ | ⟨-, room, e⟩ | ⟨-, -, e⟩ <;> rw [e]
  · exact h
  · exact h.trans (t.within_setPort_notices p _ (by simp; omega) rfl rfl)
  · exact h.trans (t.within_setPort_notices p _ (by simp) rfl rfl)

theorem State.Within.raiseNow {f c} : s.Within (t.raiseNow f c) := by
  rw [State.raiseNow_eq]
  dsimp only
  split
  · split
    · exact h.withFaults.offer.withFaults
    · exact h.withFaults.offer
  · exact h.withFaults

theorem State.Within.raiseFault {f c} : s.Within (t.raiseFault f c) := by
  unfold State.raiseFault
  split
  · exact h.withFaults
  · exact h.raiseNow

theorem State.Within.foldl {α : Type} {f : State → α → State} (hf : ∀ (u : State) (a : α), u.Within (f u a))
    {l : List α} : s.Within (l.foldl f t) := by
  induction l generalizing t with
  | nil => exact h
  | cons a rest ih => exact ih (h.trans (hf t a))

theorem State.Within.offerAll {ports n} : s.Within (t.offerAll ports n).1 := by
  induction ports generalizing t with
  | nil => exact h
  | cons p rest ih => exact ih h.offer

theorem State.Within.notify {k a b c d} : s.Within (t.notify k a b c d) :=
  h.offerAll.foldl fun u _ => (State.Within.refl u).raiseFault

theorem State.Within.relayNotices {x y} : s.Within (t.relayNotices x y) := by
  refine h.foldl fun u i => ?_
  unfold State.relayNotice
  split
  · exact (State.Within.refl u).notify
  · exact (State.Within.refl u).notify
  · exact .refl u
  · exact .refl u

theorem State.Within.derivationPass : s.Within t.derivationPass := by
  unfold State.derivationPass
  dsimp only
  apply State.Within.relayNotices
  exact h.trans ⟨id, id, id, id⟩

theorem State.Within.passNotices {x y b} : s.Within (t.passNotices x y b) := by
  refine h.foldl fun u p => ?_
  unfold State.passNotice
  dsimp only
  split
  · split
    · exact (State.Within.refl u).notify.notify
    · exact (State.Within.refl u).notify
  · split
    · exact (State.Within.refl u).notify
    · exact .refl u

theorem State.Within.allocationPass : s.Within t.allocationPass := by
  unfold State.allocationPass
  dsimp only
  split
  · apply State.Within.raiseFault
    apply State.Within.passNotices
    exact h.trans ⟨id, id, id, id⟩
  · apply State.Within.passNotices
    exact h.trans ⟨id, id, id, id⟩

end notices

/-! ### Requests keep the bounds -/

section requests
variable {s t : State} (h : s.Within t)

theorem State.openRequest_startup (s : State) (p : Port) : (s.openRequest p).startup = s.startup := by
  unfold State.openRequest State.takeSelfReset State.resetPort
  dsimp only
  split <;> simp

theorem State.placeRequest_placeAnswer (s : State) (p : Port) (code c : Byte) (params l : List Byte) (r : Result) :
    (s.placeRequest p code params).placeAnswer p c r l = s.placeAnswer p c r l := by cases p <;> rfl

include h

theorem State.Within.shiftOut {p bs} : s.Within (t.shiftOut p bs) := by
  cases p <;> exact h.trans ⟨id, id, id, id⟩

theorem State.Within.resetPort {p} : s.Within (t.resetPort p) :=
  h.trans (t.within_setPort p _ (fun _ => ⟨by simp [PortState.reset], fun _ hk => hk⟩) nofun)

theorem State.Within.placeAnswer {p c r l} : s.Within (t.placeAnswer p c r l) :=
  h.trans (t.within_setPort p _ id nofun)

theorem State.Within.takeSelfReset {p} : s.Within (t.takeSelfReset p) := by
  unfold State.takeSelfReset
  split
  · exact h.resetPort.trans ⟨id, id, id, id⟩
  · exact h

theorem State.Within.clearAnswer {p} : s.Within (t.setPort p { t.port p with answer := none }) :=
  h.trans (t.within_setPort_notices p _ (Nat.le_max_right ..) rfl rfl)

theorem State.Within.openRequest {p} : s.Within (t.openRequest p) := h.shiftOut.takeSelfReset.clearAnswer

/-- A request that passes the port's checks is placed in the slot. -/
theorem State.Within.placeRequest {p code params} (hc : t.portCheck p code params = none) :
    s.Within (t.placeRequest p code params) :=
  h.trans (t.within_setPort p _ id fun r hr => .inr (by cases hr; exact hc))

theorem State.Within.takeRequest {p code params} : s.Within (t.takeRequest p code params) := by
  unfold State.takeRequest
  cases hc : t.portCheck p code params with
  | some r =>
    dsimp only
    rw [State.placeRequest_placeAnswer]
    exact h.openRequest.placeAnswer
  | none =>
    refine h.openRequest.placeRequest ?_
    rw [State.portCheck_congr (t.openRequest_startup p)]
    exact hc

theorem State.Within.handle {p code} {body : State → Reply} (hb : ∀ u, State.Within u (body u).state) :
    s.Within (t.handle p code body) := (h.trans (hb t)).placeAnswer

/-- A command keeps the bounds when its body does. -/
theorem State.Within.serve {p code params} {body : State → Reply} (hb : ∀ u, State.Within u (body u).state) :
    s.Within (t.serve p code params body) := by
  unfold State.serve
  split
  · cases (t.port p).request with
    | some r =>
      dsimp only
      split
      · exact h.handle hb
      · exact h.shiftOut
    | none =>
      dsimp only
      split
      · split
        · exact h.takeRequest
        · exact h.takeRequest.handle hb
      · exact h.openRequest.placeAnswer
  · exact h

theorem State.Within.takeFrame {p f} : s.Within (t.takeFrame p f) := by
  cases f with
  | absent => exact h.shiftOut
  | broken code => exact h.openRequest.placeAnswer
  | whole code params => exact h.takeRequest

end requests

theorem withParams_within {α : Type} {parsed : Option α} {f : α → State → Reply}
    (hf : ∀ a, parsed = some a → ∀ s, State.Within s (f a s).state) (s : State) :
    s.Within (withParams parsed f s).state := by
  cases parsed with
  | none => exact .refl s
  | some a => exact hf a rfl s

/-! ### The Port Interfaces' commands -/

theorem readNotice_within (p : Port) (x : Unit) (s : State) : s.Within (readNotice p x s).state := by
  unfold readNotice
  dsimp only
  split
  · exact .refl s
  · next n rest hq =>
    exact s.within_setPort_notices p _ (by rw [hq]; simp) rfl rfl

/-- Every value that `readAll?` gives was read from some byte. -/
theorem readAll?_mem {α : Type} {f : Byte → Option α} {bs : List Byte} {l : List α} (h : readAll? f bs = some l) :
    ∀ a ∈ l, ∃ b, f b = some a := by
  induction bs generalizing l with
  | nil => cases h; nofun
  | cons b rest ih =>
    unfold readAll? at h
    split at h
    · next x y hx hy =>
      cases h
      intro a ha
      rcases List.mem_cons.mp ha with rfl | ha
      · exact ⟨b, hx⟩
      · exact ih hy a ha
    · cases h

/-- SET NOTICE MASK names kinds of the asking port alone (R176). -/
theorem maskParams?_kindsOf {p : Port} {bs : List Byte} {kinds : List NoticeKind} (h : maskParams? p bs = some kinds) :
    ∀ k ∈ kinds, k ∈ kindsOf p := by
  unfold maskParams? at h
  split at h
  · cases h
  · split at h
    · intro k hk
      obtain ⟨b, hb⟩ := readAll?_mem h k hk
      simpa using (Option.filter_eq_some_iff.mp hb).2
    · cases h

theorem setNoticeMask_within {p : Port} {kinds : List NoticeKind} (hk : ∀ k ∈ kinds, k ∈ kindsOf p) (s : State) :
    s.Within (setNoticeMask p kinds s).state := by
  refine s.within_setPort p _ (fun ⟨hq, _⟩ => ⟨hq, fun k hm => hk k ?_⟩) fun r hr => .inl hr
  simpa using (List.mem_filter.mp hm).2

theorem portReset_within (q : Port) (s : State) : s.Within (portReset q s).state := by
  cases q with
  | operator => exact ⟨id, id, id, id⟩
  | booth => exact (State.Within.refl s).resetPort (p := .booth)
  | hire => exact (State.Within.refl s).resetPort (p := .hire)

/-! ### The Booth Section keeps the bounds -/

section booth
variable {s t : State} (h : s.Within t)
include h

theorem State.Within.cut {d c} : s.Within (t.cut d c) := by
  unfold State.cut
  split
  · exact h.setDeskState.loseLive.notify
  · exact h.setDeskState
  · exact h
  · exact h

theorem State.Within.dropRequest {b c} : s.Within (t.dropRequest b c) := by
  unfold State.dropRequest
  split
  · exact h
  · exact h.setRequest.notify

theorem State.Within.overrideCut {d} : s.Within (t.overrideCut d) := by
  unfold State.overrideCut
  dsimp only
  split
  · split
    · exact h.cut.dropRequest
    · exact h.cut
  · exact h.cut

theorem State.Within.cutMarked {m} : s.Within (t.cutMarked m) := by
  cases m with
  | none => exact h
  | some e => exact h.overrideCut

theorem State.Within.goLive {d o} : s.Within (t.goLive d o) := by
  unfold State.goLive
  split
  · exact h.modifyDesk.modifyProgram.modifyInterpreter
  · exact h

theorem State.Within.finishHandover {b x y z} : s.Within (t.finishHandover b x y z) := h.setRequest.notify

theorem State.Within.failHandover {b x p e} : s.Within (t.failHandover b x p e) := h.setRequest.notify

theorem State.Within.completeHandover {b x r e z} : s.Within (t.completeHandover b x r e z) := by
  cases e with
  | none => exact h.goLive.finishHandover
  | some e => exact h.overrideCut.goLive.finishHandover

theorem State.Within.release {d} : s.Within (t.release d) := by
  unfold State.release
  split
  · dsimp only
    split
    · exact h.setDeskState.loseLive
    · split
      · exact h.setDeskState.loseLive.setRequest
      · split
        · split
          · exact h.setDeskState.loseLive.failHandover
          · exact h.setDeskState.loseLive.completeHandover
        · exact h.setDeskState.loseLive.completeHandover
  · exact h.setDeskState
  · exact h
  · exact h

theorem State.Within.forceHandover {b r} : s.Within (t.forceHandover b r) := by
  unfold State.forceHandover
  dsimp only
  split
  · split
    · exact h.failHandover
    · exact h.cut.completeHandover.derivationPass
  · exact h.setRequest

theorem State.Within.vacate {d} : s.Within (t.vacate d) := by
  unfold State.vacate
  split
  · exact h
  · exact h.setDeskState.modifyInterpreter

theorem State.Within.switchOutput {d o p} : s.Within (t.switchOutput d o p) := by
  unfold State.switchOutput
  split
  · exact h.loseLive.setDeskState.modifyProgram
  · exact h

theorem State.Within.checkTurn {d} : s.Within (t.checkTurn d) := by
  unfold State.checkTurn
  dsimp only
  split
  · split
    · exact h.modifyDesk.notify
    · exact h
  · exact h
  · exact h

theorem State.Within.countAirTime : s.Within t.countAirTime :=
  (h.trans (u := { t with booth := { t.booth with desks := t.booth.desks.map Desk.countTick } })
    ⟨id, id, id, id⟩).setInterpreters (by simp)

theorem State.Within.boothTick : s.Within t.boothTick := by
  unfold State.boothTick
  split
  · exact h.countAirTime.foldl fun u _ => (State.Within.refl u).checkTurn
  · exact h

theorem State.Within.leaveLive : s.Within t.leaveLive := by
  unfold State.leaveLive
  dsimp only
  apply State.Within.derivationPass
  apply State.Within.foldl
  · apply State.Within.foldl
    · exact h.trans ⟨id, id, id, id⟩
    · exact fun u _ => (State.Within.refl u).cut
  · intro u b
    split
    · exact (State.Within.refl u).notify
    · exact .refl u

end booth

theorem login_within (d : DeskId) (id : Nat) (s : State) : s.Within (login d id s).state := by
  unfold login
  split
  · exact .refl s
  · split
    · exact .refl s
    · split
      · exact .refl s
      · next full =>
        dsimp only
        split
        · next new =>
          have room : s.booth.interpreters.length < 96 := by
            by_contra k
            exact full ⟨new, Nat.not_lt.mp k⟩
          exact ((State.Within.refl s).setInterpreters (by simp; omega)).modifyDesk
        · exact (State.Within.refl s).modifyInterpreter.modifyDesk

theorem logout_within (d : DeskId) (s : State) : s.Within (logout d s).state := by
  unfold logout
  split
  · exact .refl s
  · dsimp only
    split
    · exact (State.Within.refl s).dropRequest.vacate
    · exact (State.Within.refl s).vacate
  · exact (State.Within.refl s).release.vacate.derivationPass

theorem askHandover_within (d : DeskId) (o : Output) (q : Fin 3) (s : State) : s.Within (s.askHandover d o q).state := by
  unfold State.askHandover State.pendingAnswer
  dsimp only
  exact (State.Within.refl s).setRequest.notify

theorem takeAir_within (d : DeskId) (o : Output) (p : Prog) (m : Option DeskId) (s : State) :
    s.Within (takeAir d o p m s).state := by
  unfold takeAir
  split
  · split
    · split
      · exact .refl s
      · exact .refl s
    · split
      · exact (State.Within.refl s).cut.cutMarked.goLive.derivationPass
      · exact askHandover_within ..
  · split
    · exact (State.Within.refl s).cutMarked.switchOutput.derivationPass
    · exact (State.Within.refl s).cutMarked.goLive.derivationPass

theorem micOn_within (d : DeskId) (o : Output) (s : State) : s.Within (micOn d o s).state := by
  unfold micOn
  split
  · exact .refl s
  · split
    · exact .refl s
    · split
      · exact .refl s
      · split
        · exact .refl s
        · split
          · exact takeAir_within ..
          · split
            · exact .refl s
            · exact takeAir_within ..

theorem micOff_within (d : DeskId) (s : State) : s.Within (micOff d s).state := by
  unfold micOff
  split
  · exact (State.Within.refl s).release.derivationPass
  · split
    · exact (State.Within.refl s).dropRequest
    · exact .refl s
  · exact .refl s

theorem cancelHandover_within (b : Fin 24) (s : State) : s.Within (cancelHandover b s).state := by
  unfold cancelHandover
  split
  · exact .refl s
  · exact (State.Within.refl s).dropRequest

theorem selectSource_within (d : DeskId) (x : Source) (s : State) : s.Within (selectSource d x s).state := by
  unfold selectSource
  split
  · exact .refl s
  · split
    · exact .refl s
    · split
      · exact .refl s
      · exact (State.Within.refl s).modifyDesk.derivationPass

theorem readInterpreter_within (x : Nat ⊕ Nat) (s : State) : s.Within (readInterpreter x s).state := by
  unfold readInterpreter
  split <;> split <;> exact .refl s

/-! ### Programs and the Carrier Planner keep the bounds -/

section planner
variable {s t : State} (h : s.Within t)
include h

theorem State.Within.outputsChanged {b} : s.Within (t.outputsChanged b) := by
  refine State.Within.derivationPass ?_
  exact h.trans ⟨id, id, id, id⟩

theorem State.Within.writeBooth {b c} : s.Within (t.writeBooth b c) := by
  unfold State.writeBooth
  dsimp only
  split
  · exact h.setBoothConfig.setHold
  · split
    · exact h.setBoothConfig
    · exact h.setBoothConfig.outputsChanged

theorem State.Within.unconfigure {p} : s.Within (t.unconfigure p) := by
  refine State.Within.derivationPass ?_
  exact h.trans ⟨id, id, id, id⟩

theorem State.Within.commitProgram {p c} : s.Within (t.commitProgram p c) := by
  unfold State.commitProgram
  dsimp only
  split
  · split
    · exact h.setProgConfig.unconfigure.allocationPass
    · exact h.setProgConfig.allocationPass
  · split
    · exact h.setProgConfig.unconfigure
    · exact h.setProgConfig

theorem State.Within.writeProgram {p c} : s.Within (t.writeProgram p c) := by
  unfold State.writeProgram
  split
  · exact h.setHold
  · exact h.commitProgram

theorem State.Within.releasePlan {x} : s.Within (t.releasePlan x) := by
  unfold State.releasePlan
  refine State.Within.setHold (.allocationPass (.derivationPass ?_))
  exact h.trans ⟨id, id, id, id⟩

theorem State.Within.takeBank {b} : s.Within (t.takeBank b) := by
  unfold State.takeBank
  dsimp only
  refine State.Within.notify ?_
  exact h.trans ⟨id, id, id, id⟩

end planner

theorem setBooth_within (a : BoothArgs) (s : State) : s.Within (setBooth a s).state := by
  unfold setBooth
  split
  · exact .refl s
  · split
    · exact .refl s
    · exact (State.Within.refl s).writeBooth

theorem setProgram_within (p : Prog) (c : ProgConfig) (s : State) : s.Within (setProgram p c s).state := by
  unfold setProgram
  dsimp only
  split
  · exact .refl s
  · split
    · exact .refl s
    · exact (State.Within.refl s).writeProgram

theorem planHold_within (x : Unit) (s : State) : s.Within (planHold x s).state := by
  unfold planHold
  split
  · exact .refl s
  · exact (State.Within.refl s).setHold

theorem planRelease_within (x : Unit) (s : State) : s.Within (planRelease x s).state := by
  unfold planRelease
  split
  · exact .refl s
  · split
    · exact .refl s
    · exact (State.Within.refl s).releasePlan

theorem planAbandon_within (x : Unit) (s : State) : s.Within (planAbandon x s).state := by
  unfold planAbandon
  split
  · exact (State.Within.refl s).setHold
  · exact .refl s

theorem readPlan_within (x : PlanSelector) (s : State) : s.Within (readPlan x s).state := by
  unfold readPlan
  split <;> exact .refl s

theorem setBankBudget_within (k : Fin 8) (v : Nat) (s : State) : s.Within (setBankBudget k v s).state := by
  unfold setBankBudget
  dsimp only
  split
  · exact (State.Within.refl s).setBudget.allocationPass
  · exact (State.Within.refl s).setBudget

/-! ### The Receiver Registry and the racks keep the bounds -/

/-- A record put in its place makes the list one longer. -/
theorem insertAsc_length {α : Type} (key : α → Nat) (a : α) (l : List α) :
    (insertAsc key a l).length = l.length + 1 := by
  induction l with
  | nil => rfl
  | cons b rest ih =>
    unfold insertAsc
    split
    · rfl
    · simp [ih]

section registry
variable {s t : State} (h : s.Within t)
include h

theorem State.Within.freeSlot {n} : s.Within (t.freeSlot n) := by
  unfold State.freeSlot
  split
  · exact h.setSlot.modifyReceiver
  · exact h

theorem State.Within.seat {n k} : s.Within (t.seat n k) := h.freeSlot.setSlot.modifyReceiver

theorem State.Within.clearMark {n} : s.Within (t.clearMark n) := by
  unfold State.clearMark
  split
  · split
    · exact h.modifyReceiver.setStocktake
    · exact h
  · exact h

theorem State.Within.issueReceiver {n k} : s.Within (t.issueReceiver n k) := h.clearMark.modifyReceiver

theorem State.Within.unrackReceiver {n} : s.Within (t.unrackReceiver n) := h.freeSlot.modifyReceiver

theorem State.Within.loseReceiver {n k} : s.Within (t.loseReceiver n k) := h.freeSlot.modifyReceiver

theorem State.Within.removeReceiver {n} : s.Within (t.removeReceiver n) :=
  h.freeSlot.setReceivers ((List.length_filter_le ..).trans (Nat.le_max_right ..))

theorem State.Within.clearMarks : s.Within t.clearMarks :=
  h.trans ⟨id, fun ⟨a, b, c, d⟩ => ⟨a, b, by simpa [State.clearMarks] using c, d⟩, id, id⟩

theorem State.Within.pullFromRack {m k c} : s.Within (t.pullFromRack m k c) :=
  h.clearMark.freeSlot.setReceiverState.notify

theorem State.Within.displace {n k} : s.Within (t.displace n k).1 := by
  unfold State.displace
  split
  · exact h
  · split
    · exact h
    · split
      · exact h.setSlot
      · dsimp only
        split
        · exact h.pullFromRack
        · exact h.freeSlot

theorem State.Within.seatAndPlace {n k b x} : s.Within (t.seatAndPlace n k b x) := h.seat.modifyReceiver.clearMark

theorem State.Within.pull {m k} : s.Within (t.pull m k) := by
  unfold State.pull
  split
  · exact h.setSlot
  · split
    · exact h.pullFromRack
    · exact h.clearMark.freeSlot

end registry

theorem readReceiver_within (x : ReceiverSelector) (s : State) : s.Within (readReceiver x s).state := by
  unfold readReceiver
  split <;> exact .refl s

theorem enrolReceiver_within (n : Nat) (s : State) : s.Within (enrolReceiver n s).state := by
  unfold enrolReceiver
  dsimp only
  split
  · exact .refl s
  · split
    · exact .refl s
    · next room => exact (State.Within.refl s).setReceivers (by rw [insertAsc_length]; omega)

theorem withdrawAnswer_state (s : State) (n : Nat) : (s.withdrawAnswer n).state = s := by
  unfold State.withdrawAnswer
  split <;> rfl

theorem withdrawReceiver_within (n : Nat) (s : State) : s.Within (withdrawReceiver n s).state := by
  unfold withdrawReceiver
  split
  · exact .refl s
  · split
    · exact .refl s
    · rw [withdrawAnswer_state]
      exact .refl s
    · rw [withdrawAnswer_state]
      exact (State.Within.refl s).clearMark.setReceiverState
    · rw [withdrawAnswer_state]
      exact (State.Within.refl s).clearMark.setReceiverState
    · rw [withdrawAnswer_state]
      exact (State.Within.refl s).clearMark.setReceiverState
    · rw [withdrawAnswer_state]
      exact (State.Within.refl s).modifyReceiver

theorem reinstateReceiver_within (n : Nat) (s : State) : s.Within (reinstateReceiver n s).state := by
  unfold reinstateReceiver
  split
  · exact .refl s
  · split
    · exact (State.Within.refl s).setReceiverState
    · exact .refl s

theorem deleteReceiver_within (n : Nat) (s : State) : s.Within (deleteReceiver n s).state := by
  unfold deleteReceiver
  split
  · exact .refl s
  · split
    · exact (State.Within.refl s).removeReceiver
    · exact .refl s

theorem setThreshold_within (v : Nat) (s : State) : s.Within (setThreshold v s).state :=
  State.Within.setReceivers (.writeThreshold (.refl s)) (by simp)

theorem stocktakeStart_within (x : Unit) (s : State) : s.Within (stocktakeStart x s).state := by
  unfold stocktakeStart
  split
  · exact .refl s
  · exact ((State.Within.refl s).setReceivers (by simp)).setStocktake

theorem stocktakeEnd_within (x : Unit) (s : State) : s.Within (stocktakeEnd x s).state := by
  unfold stocktakeEnd
  split
  · dsimp only
    refine State.Within.setStocktake (.setReceivers ?_ (by simp))
    exact ⟨id, id, id, id⟩
  · exact .refl s

/-! ### The Hire Table and the Settlement Unit keep the bounds -/

section hires
variable {s t : State} (h : s.Within t)
include h

theorem State.Within.appendSettled {r} (room : t.settlement.queue.length < 64) : s.Within (t.appendSettled r) := by
  have k := (h.setQueue (l := t.settlement.queue ++ [r]) (by simp; omega)).modifyCounters
    (f := fun c => c.addSettled r.account)
  unfold State.appendSettled
  dsimp only
  split
  · exact k.notify
  · exact k

theorem State.Within.closeHire {x} : s.Within (t.closeHire x).1 := by
  unfold State.closeHire
  dsimp only
  split
  · next room => exact h.removeHire.appendSettled room
  · exact h.modifyHire.raiseFault

theorem State.Within.closeIfDone {n} : s.Within (t.closeIfDone n).1 := by
  unfold State.closeIfDone
  split
  · exact h
  · split
    · exact h
    · exact h.closeHire

theorem State.Within.changeDemand {p f} : s.Within (t.changeDemand p f) := by
  cases p with
  | none => exact h
  | some p => exact h.modifyProgram

theorem State.Within.openHire {n a} (room : t.hires.records.length < 512) : s.Within (t.openHire n a) := by
  unfold State.openHire
  dsimp only
  have opened := (h.setHireCounter (n := nextHireNumber n)).setHires
    (l := insertAsc (·.number) (t.newHire n a) t.hires.records) (by rw [insertAsc_length]; omega)
  exact (opened.foldl fun u _ => (State.Within.refl u).issueReceiver).changeDemand.modifyCounters

theorem State.Within.addLine {x n} : s.Within (t.addLine x n) := by
  unfold State.addLine
  dsimp only
  exact h.modifyHire.issueReceiver.changeDemand.modifyCounters

theorem State.Within.returnLine {x i n} : s.Within (t.returnLine x i n) := by
  unfold State.returnLine
  dsimp only
  exact h.modifyHire.unrackReceiver.changeDemand.modifyCounters

theorem State.Within.returnReceiver {r} : s.Within (t.returnReceiver r).1 := by
  unfold State.returnReceiver
  split
  · exact h.returnLine.closeIfDone
  · exact h.unrackReceiver

theorem State.Within.writeOffLine {x i n} : s.Within (t.writeOffLine x i n) := by
  unfold State.writeOffLine
  dsimp only
  exact h.modifyHire.loseReceiver.changeDemand.modifyCounters

theorem State.Within.movePreset {x p} : s.Within (t.movePreset x p) := by
  unfold State.movePreset
  dsimp only
  exact h.modifyHire.changeDemand.changeDemand

theorem State.Within.checkOverdue {x} : s.Within (t.checkOverdue x) := by
  unfold State.checkOverdue
  dsimp only
  split
  · exact h.modifyHire.notify
  · exact h

theorem State.Within.implicitReturn {r} : s.Within (t.implicitReturn r).1 := by
  unfold State.implicitReturn
  split
  · exact h.returnReceiver
  all_goals exact h

end hires

/-- A SETTLING hire drawn into a queue that holds a record already: its record is appended without a notice (R146). -/
theorem State.drawIn_of_queued (s : State) (h : Hire) (r : Settled) (hq : s.settlement.queue ≠ [])
    (hr : r = h.settled (h.closedAt.getD s.session.clock) (s.frozen h)) :
    s.drawIn h = (((s.setQueue (s.settlement.queue ++ [r])).modifyCounters fun c => c.addSettled r.account).removeHire
      h.number).setHires ((s.hires.records.filter fun x => x.number ≠ h.number).map Hire.moveUp) := by
  subst hr
  unfold State.drawIn State.appendSettled
  simp only [List.isEmpty_iff, hq, if_false]
  rfl

theorem takeRest_within {s : State} {r : Settled} {rest : List Settled} (hq : s.settlement.queue = r :: rest) :
    s.Within (s.takeRest r rest) := by
  unfold State.takeRest
  split
  · exact (State.Within.refl s).setQueue (by rw [hq]; simp)
  · next h _ =>
    dsimp only
    rw [State.drawIn_of_queued _ h _ (by simp) rfl]
    refine .of_tables (by simp [State.removeHire]) (by simp [State.removeHire]) (by simp [State.removeHire]) ?_
    rintro ⟨hires, queue, receivers, interpreters⟩
    refine ⟨?_, ?_, receivers, interpreters⟩
    · have k := List.length_filter_le (fun x : Hire => decide (x.number ≠ h.number)) s.hires.records
      simpa using k.trans hires
    · rw [hq] at queue
      simp [State.removeHire] at queue ⊢
      omega

theorem takeSettlement_within (x : Unit) (s : State) : s.Within (takeSettlement x s).state := by
  unfold takeSettlement
  split
  · exact .refl s
  · next hq => exact takeRest_within hq

theorem openHire_within (a : OpenArgs) (s : State) : s.Within (openHire a s).state := by
  unfold openHire
  split
  · exact .refl s
  · split
    · exact .refl s
    · next room =>
      split
      · exact .refl s
      · split
        · exact .refl s
        · split
          · exact .refl s
          · exact (State.Within.refl s).openHire (Nat.not_le.mp room)

theorem addReceiver_within (k n : Nat) (s : State) : s.Within (addReceiver k n s).state := by
  unfold addReceiver
  split
  · exact .refl s
  · split
    · exact .refl s
    · split
      · exact .refl s
      · split
        · exact .refl s
        · split
          · exact .refl s
          · exact (State.Within.refl s).addLine

theorem returnReceiver_within (n : Nat) (s : State) : s.Within (returnReceiver n s).state := by
  unfold returnReceiver
  split
  · exact .refl s
  · split
    · exact (State.Within.refl s).returnReceiver
    · exact (State.Within.refl s).unrackReceiver
    all_goals exact .refl s

theorem writeOff_within (k n : Nat) (s : State) : s.Within (writeOff k n s).state := by
  unfold writeOff
  split
  · exact .refl s
  · split
    · exact .refl s
    · split
      · exact .refl s
      · exact (State.Within.refl s).writeOffLine.closeIfDone

theorem changePreset_within (k : Nat) (p : Option Prog) (s : State) : s.Within (changePreset k p s).state := by
  unfold changePreset
  split
  · exact .refl s
  · split
    · exact .refl s
    · split
      · exact .refl s
      · split
        · exact .refl s
        · exact (State.Within.refl s).movePreset

theorem readHire_within (x : HireSelector) (b : Bool) (s : State) : s.Within (readHire x b s).state := by
  unfold readHire
  split <;> exact .refl s

theorem findBadge_within (n : Nat) (s : State) : s.Within (findBadge n s).state := by
  unfold findBadge
  split <;> exact .refl s

theorem rackSeated_within (n : Nat) (k : Fin 512) (b : Nat) (s : State) : s.Within (rackSeated n k b s).state := by
  unfold rackSeated
  split
  · exact .refl s
  · exact (State.Within.refl s).implicitReturn.displace.seatAndPlace

theorem rackBattery_within (n b : Nat) (s : State) : s.Within (rackBattery n b s).state := by
  unfold rackBattery
  split
  · exact .refl s
  · exact (State.Within.refl s).modifyReceiver

theorem rackRemoved_within (k : Fin 512) (s : State) : s.Within (rackRemoved k s).state := by
  unfold rackRemoved
  split
  · exact .refl s
  · exact (State.Within.refl s).pull

/-! ### Session and Clock, the link and the start-ups keep the bounds -/

section machine
variable {s t : State} (h : s.Within t)
include h

theorem State.Within.takeOpportunity : s.Within t.takeOpportunity := by
  unfold State.takeOpportunity
  split
  · split
    · exact h.updateLink
    · exact h
  · exact h

theorem State.Within.loadClock {x} : s.Within (t.loadClock x) := by
  unfold State.loadClock
  dsimp only
  split
  · exact h.setClock.restartTickWatch.raiseFault
  · exact h.setClock.restartTickWatch

theorem State.Within.closeDay : s.Within t.closeDay := by
  unfold State.closeDay State.keptInterpreters
  dsimp only
  refine (h.writePrograms.setInterpreters (Nat.le_trans ?_ (Nat.le_max_right ..))).setDay
  simpa using List.length_filter_le Interpreter.stays (t.booth.interpreters.map Interpreter.moveDay)

theorem State.Within.clockTick : s.Within t.clockTick := h.setClock.restartTickWatch

theorem State.Within.outageTick : s.Within t.outageTick := by
  unfold State.outageTick
  split
  · exact h.writePrograms
  · exact h

theorem State.Within.checkAllOverdue : s.Within t.checkAllOverdue := h.foldl fun u _ => (State.Within.refl u).checkOverdue

/-- The start-up's defaults are empty tables (R185, R187). -/
theorem State.Within.coldStart : s.Within t.coldStart :=
  h.trans (.of_tables rfl rfl rfl fun _ => ⟨Nat.zero_le _, Nat.zero_le _, Nat.zero_le _, Nat.zero_le _⟩)

theorem State.Within.checkOutcome {x} : s.Within (t.checkOutcome x) := by
  unfold State.checkOutcome
  dsimp only
  split
  · exact h.coldStart.setClock
  · exact h.setRestart.setClock

theorem State.Within.cutStartUp {b} : s.Within (t.cutStartUp b) := by
  have k : s.Within { t with startUpsCut := t.startUpsCut + 1 } := h.trans ⟨id, id, id, id⟩
  rcases t.cutStartUp_cases b with e | e <;> rw [e]
  · exact k
  · exact k.checkOutcome

/-- The end of a start-up lifts a check of the ports and adds none (R169, R186). -/
theorem State.Within.complete : s.Within t.complete := by
  refine h.trans ⟨id, id, fun hw p r hr => ?_, id⟩
  have k := hw p r hr
  rw [State.portCheck_done _ _ _ _ rfl]
  unfold State.portCheck at k
  split at k
  · cases k
  · exact k

theorem State.Within.raiseHeld : s.Within t.raiseHeld :=
  State.Within.foldl (h.withFaults (c := { t.faults with held := [] })) fun u _ => (State.Within.refl u).raiseNow

theorem State.Within.started : s.Within t.started := h.notify

theorem State.Within.startPasses : s.Within t.startPasses := by
  unfold State.startPasses
  refine State.Within.allocationPass (.derivationPass ?_)
  exact h.trans ⟨id, id, id, id⟩

theorem State.Within.raiseRetentionLost {x} : s.Within (t.raiseRetentionLost x) := by
  cases x with
  | none => exact h
  | some g => exact h.raiseNow (f := .retentionLost) (c := g)

/-- The reset of the volatile state empties the ports, whatever the start-up state becomes (R165, R186). -/
theorem State.Within.volatileReset {x : Startup} : s.Within { t.volatileReset with startup := x } := by
  have port : ∀ p, ({ t.volatileReset with startup := x } : State).port p = .reset p := fun p => by cases p <;> rfl
  refine h.trans ⟨fun _ => ?_, fun ⟨a, b, c, d⟩ => ⟨a, b, ?_, ?_⟩, fun _ p r hr => ?_, id⟩
  · rw [State.portsOk_iff]
    intro p
    rw [port]
    exact ⟨Nat.zero_le _, fun _ hk => hk⟩
  · simpa [State.volatileReset, Registry.volatileReset] using c
  · simpa [State.volatileReset, BoothSection.volatileReset] using d
  · rw [port] at hr
    cases hr

theorem State.Within.externalReset : s.Within t.externalReset := by
  unfold State.externalReset
  split
  · exact h.cutStartUp.volatileReset (x := (t.cutStartUp true).startup)
  · exact (h.volatileReset (x := .external)).setRestart
  · exact (h.volatileReset (x := .external)).setRestart

end machine

theorem changeSession_within (x : Session) (s : State) : s.Within (s.changeSession x).state := by
  unfold State.changeSession
  dsimp only
  exact (State.Within.refl s).setSession.notify

theorem openSession_within (x : Unit) (s : State) : s.Within (openSession x s).state := by
  unfold openSession
  split
  · exact .refl s
  · split
    · exact .refl s
    · exact changeSession_within ..

theorem recess_within (x : Unit) (s : State) : s.Within (recess x s).state := by
  unfold recess
  split
  · exact .refl s
  · exact (State.Within.refl s).leaveLive.trans (changeSession_within ..)

theorem resume_within (x : Unit) (s : State) : s.Within (resume x s).state := by
  unfold resume
  split
  · exact .refl s
  · exact changeSession_within ..

theorem endSession_within (x : Unit) (s : State) : s.Within (endSession x s).state := by
  unfold endSession
  split
  · exact .refl s
  · exact (State.Within.refl s).leaveLive.trans (changeSession_within ..)
  · exact changeSession_within ..

theorem dayClose_within (x : Unit) (s : State) : s.Within (dayClose x s).state := by
  unfold dayClose
  split
  · exact .refl s
  · exact (State.Within.refl s).closeDay

theorem readDaySummary_within (x : Unit) (s : State) : s.Within (readDaySummary x s).state := by
  unfold readDaySummary
  dsimp only
  split <;> exact .refl s

/-! ### Every event keeps the bounds -/

section events
variable {s t : State}

/-- An event that ends in `u` keeps the bounds when `u` does. -/
theorem State.Within.of_next {u : State} (k : s.Within u) (h : (.next u : Host.Outcome State Fault Refusal) = .next t) :
    s.Within t := by
  cases h; exact k

/-- A command keeps the bounds when its body does, for all parameters that are read. -/
theorem serve_withParams_within {α : Type} {p : Port} {code : Byte} {params : List Byte} {parsed : Option α}
    {f : α → State → Reply} (hf : ∀ a, parsed = some a → ∀ u, State.Within u (f a u).state)
    (h : (.next (s.serve p code params (withParams parsed f)) : Host.Outcome State Fault Refusal) = .next t) :
    s.Within t := by
  cases h; exact (State.Within.refl s).serve (withParams_within hf)

theorem powerOn_within (h : exec .powerOn s = .next t) : s.Within t := by
  cases h
  refine State.Within.trans (t := ({ s with now := 0, powered := true, checkSince := 0 } : State))
    ⟨id, id, id, fun _ => Nat.zero_le _⟩ ?_
  exact ((State.Within.refl _).volatileReset (x := .checking)).trans ⟨id, id, id, id⟩

theorem mainPowerLoss_within (h : exec .mainPowerLoss s = .next t) : s.Within t := by
  cases h
  dsimp only
  split
  · exact (State.Within.refl s).cutStartUp.trans ⟨id, id, id, id⟩
  · exact ⟨id, id, id, id⟩

theorem startupCheckComplete_within (h : exec .startupCheckComplete s = .next t) : s.Within t := by
  cases h
  split
  · exact (State.Within.refl s).checkOutcome.startPasses.complete.restartTickWatch.raiseHeld.raiseRetentionLost.started
  · exact .refl s

theorem externalReset_within (h : exec .externalReset s = .next t) : s.Within t := by
  cases h
  split
  · exact .refl s
  · split
    · exact (State.Within.refl s).externalReset.trans ⟨id, id, id, id⟩
    · exact ⟨id, id, id, id⟩

theorem resetRelease_within (h : exec .resetRelease s = .next t) : s.Within t := by
  cases h
  have lines : s.Within (State.readLines { s with resetAsserted := false }) := ⟨id, id, id, id⟩
  split
  · dsimp only
    split
    · split
      · exact lines.trans ⟨id, id, id, id⟩
      · exact lines.startPasses.complete.raiseHeld.started
      · exact lines.startPasses.complete.raiseHeld.started
    · exact ⟨id, id, id, id⟩
  · exact .refl s

theorem tick_within (h : exec .tick s = .next t) : s.Within t := by
  cases h
  split
  · exact .refl s
  · exact .refl s
  · exact (State.Within.refl s).clockTick
  · exact (State.Within.refl s).clockTick.boothTick.outageTick.checkAllOverdue

theorem tickWatchExpiry_within (h : exec .tickWatchExpiry s = .next t) : s.Within t := by
  cases h
  split
  · have lost : s.Within { s with session := { s.session with tickLost := true } } := ⟨id, id, id, id⟩
    exact lost.setClock.raiseFault
  · exact .refl s

theorem healthLineChange_within {lines : Fin 8} (h : exec (.healthLineChange lines) s = .next t) : s.Within t := by
  cases h
  split
  · exact .refl s
  · split <;> exact ⟨id, id, id, id⟩

theorem debounceExpiry_within (h : exec .debounceExpiry s = .next t) : s.Within t := by
  cases h
  split
  · dsimp only
    split
    · exact (State.Within.refl s).takeBank
    · exact (State.Within.refl s).takeBank.allocationPass
  · exact .refl s

theorem handoverExpiry_within {b : Fin 24} (h : exec (.handoverExpiry b) s = .next t) : s.Within t := by
  cases h
  split
  · split
    · exact (State.Within.refl s).forceHandover
    · exact (State.Within.refl s).dropRequest
  · exact .refl s

theorem stocktakeExpiry_within (h : exec .stocktakeExpiry s = .next t) : s.Within t := by
  cases h
  dsimp only
  split
  · exact (State.Within.refl s).clearMarks.setStocktake.notify
  · exact .refl s

theorem readyAssert_within (h : exec .readyAssert s = .next t) : s.Within t := by
  cases h
  split
  · exact (State.Within.refl s).updateLink.takeOpportunity
  · exact ⟨id, id, id, id⟩

theorem readyDeassert_within (h : exec .readyDeassert s = .next t) : s.Within t := by
  cases h
  split
  · exact (State.Within.refl s).updateLink
  · exact ⟨id, id, id, id⟩

theorem sendOpportunity_within (h : exec .sendOpportunity s = .next t) : s.Within t := by
  cases h
  split
  · exact (State.Within.refl s).takeOpportunity
  · exact .refl s

theorem transmissionComplete_within (h : exec .transmissionComplete s = .next t) : s.Within t := by
  cases h
  split
  · exact (State.Within.refl s).updateLink.takeOpportunity
  · exact .refl s

theorem stallWatchExpiry_within (h : exec .stallWatchExpiry s = .next t) : s.Within t := by
  cases h
  split
  · have episode : s.Within { s with link := { s.link with episode := true } } := ⟨id, id, id, id⟩
    exact episode.raiseFault
  · exact .refl s

theorem vbakFailure_within (h : exec .vbakFailure s = .next t) : s.Within t := by
  cases h
  split
  · exact .refl s
  · exact ⟨id, id, id, id⟩

theorem requestTransaction_within {p : Port} {frame : List Byte} (h : exec (.requestTransaction p frame) s = .next t) :
    s.Within t := by
  cases h
  split
  · split
    · exact (State.Within.refl s).shiftOut
    · exact (State.Within.refl s).takeFrame
  · exact .refl s

theorem fetchAnswer_within {p : Port} (h : exec (.fetchAnswer p) s = .next t) : s.Within t := by
  cases h
  split
  · split
    · exact (State.Within.refl s).shiftOut.clearAnswer.takeSelfReset
    · exact (State.Within.refl s).shiftOut
  · exact .refl s

theorem statusOnly_within {p : Port} (h : exec (.statusOnly p) s = .next t) : s.Within t := by
  cases h
  split
  · exact (State.Within.refl s).shiftOut
  · exact .refl s

theorem undefinedTransactionByte_within {p : Port} {b : Byte} (h : exec (.undefinedTransactionByte p b) s = .next t) :
    s.Within t := by
  cases h
  split
  · exact (State.Within.refl s).shiftOut
  · exact .refl s

theorem unknownCommand_within {p : Port} {code : Byte} {params : List Byte}
    (h : exec (.unknownCommand p code params) s = .next t) : s.Within t := by
  cases h
  split
  · exact (State.Within.refl s).serve fun u => .refl u
  · exact .refl s

end events

/-- Every event keeps the bounds: those of the supplies, the clock, the timers, the link and the transactions each by their
own lemma, and a command because its body does. -/
theorem exec_within (c : Instr) (s t : State) (h : exec c s = .next t) : s.Within t := by
  cases c with
  | powerOn => exact powerOn_within h
  | mainPowerLoss => exact mainPowerLoss_within h
  | startupCheckComplete => exact startupCheckComplete_within h
  | externalReset => exact externalReset_within h
  | resetRelease => exact resetRelease_within h
  | tick => exact tick_within h
  | tickWatchExpiry => exact tickWatchExpiry_within h
  | healthLineChange lines => exact healthLineChange_within h
  | debounceExpiry => exact debounceExpiry_within h
  | handoverExpiry b => exact handoverExpiry_within h
  | stocktakeExpiry => exact stocktakeExpiry_within h
  | readyAssert => exact readyAssert_within h
  | readyDeassert => exact readyDeassert_within h
  | sendOpportunity => exact sendOpportunity_within h
  | transmissionComplete => exact transmissionComplete_within h
  | stallWatchExpiry => exact stallWatchExpiry_within h
  | vbakFailure => exact vbakFailure_within h
  | requestTransaction p frame => exact requestTransaction_within h
  | fetchAnswer p => exact fetchAnswer_within h
  | statusOnly p => exact statusOnly_within h
  | undefinedTransactionByte p b => exact undefinedTransactionByte_within h
  | unknownCommand p code params => exact unknownCommand_within h
  | readStatus p params => exact serve_withParams_within (fun _ _ s => .refl s) h
  | readNotice p params => exact serve_withParams_within (fun x _ => readNotice_within _ x) h
  | setNoticeMask p params => exact serve_withParams_within (fun _ hk => setNoticeMask_within (maskParams?_kindsOf hk)) h
  | readCapability p params => exact serve_withParams_within (fun _ _ s => .refl s) h
  | login p params => exact serve_withParams_within (fun a _ => login_within a.1 a.2) h
  | logout p params => exact serve_withParams_within (fun d _ => logout_within d) h
  | micOn p params => exact serve_withParams_within (fun a _ => micOn_within a.1 a.2) h
  | micOff p params => exact serve_withParams_within (fun d _ => micOff_within d) h
  | cancelHandover p params => exact serve_withParams_within (fun b _ => cancelHandover_within b) h
  | selectSource p params => exact serve_withParams_within (fun a _ => selectSource_within a.1 a.2) h
  | readDesk p params => exact serve_withParams_within (fun _ _ s => .refl s) h
  | readBooth p params => exact serve_withParams_within (fun _ _ s => .refl s) h
  | readProgram p params => exact serve_withParams_within (fun _ _ s => .refl s) h
  | openHire p params => exact serve_withParams_within (fun a _ => openHire_within a) h
  | addReceiver p params => exact serve_withParams_within (fun a _ => addReceiver_within a.1 a.2) h
  | returnReceiver p params => exact serve_withParams_within (fun n _ => returnReceiver_within n) h
  | writeOff p params => exact serve_withParams_within (fun a _ => writeOff_within a.1 a.2) h
  | changePreset p params => exact serve_withParams_within (fun a _ => changePreset_within a.1 a.2) h
  | readHire p params => exact serve_withParams_within (fun a _ => readHire_within a.1 a.2) h
  | readReceiver p params => exact serve_withParams_within (fun x _ => readReceiver_within x) h
  | rackSeated p params => exact serve_withParams_within (fun a _ => rackSeated_within a.1 a.2.1 a.2.2) h
  | rackBattery p params => exact serve_withParams_within (fun a _ => rackBattery_within a.1 a.2) h
  | rackRemoved p params => exact serve_withParams_within (fun k _ => rackRemoved_within k) h
  | stocktakeStart p params => exact serve_withParams_within (fun x _ => stocktakeStart_within x) h
  | stocktakeEnd p params => exact serve_withParams_within (fun x _ => stocktakeEnd_within x) h
  | takeSettlement p params => exact serve_withParams_within (fun x _ => takeSettlement_within x) h
  | findBadge p params => exact serve_withParams_within (fun n _ => findBadge_within n) h
  | openSession p params => exact serve_withParams_within (fun x _ => openSession_within x) h
  | recess p params => exact serve_withParams_within (fun x _ => recess_within x) h
  | resume p params => exact serve_withParams_within (fun x _ => resume_within x) h
  | endSession p params => exact serve_withParams_within (fun x _ => endSession_within x) h
  | setBooth p params => exact serve_withParams_within (fun a _ => setBooth_within a) h
  | setProgram p params => exact serve_withParams_within (fun a _ => setProgram_within a.1 a.2) h
  | planHold p params => exact serve_withParams_within (fun x _ => planHold_within x) h
  | planRelease p params => exact serve_withParams_within (fun x _ => planRelease_within x) h
  | planAbandon p params => exact serve_withParams_within (fun x _ => planAbandon_within x) h
  | setBankBudget p params => exact serve_withParams_within (fun a _ => setBankBudget_within a.1 a.2) h
  | setTariff p params => exact serve_withParams_within (fun _ _ s => (State.Within.refl s).setTariff) h
  | setThreshold p params => exact serve_withParams_within (fun v _ => setThreshold_within v) h
  | setClock p params => exact serve_withParams_within (fun _ _ s => (State.Within.refl s).loadClock) h
  | dayClose p params => exact serve_withParams_within (fun x _ => dayClose_within x) h
  | enrolReceiver p params => exact serve_withParams_within (fun n _ => enrolReceiver_within n) h
  | withdrawReceiver p params => exact serve_withParams_within (fun n _ => withdrawReceiver_within n) h
  | reinstateReceiver p params => exact serve_withParams_within (fun n _ => reinstateReceiver_within n) h
  | deleteReceiver p params => exact serve_withParams_within (fun n _ => deleteReceiver_within n) h
  | readFaults p params => exact serve_withParams_within (fun _ _ s => .refl s) h
  | clearFaults p params => exact serve_withParams_within (fun _ _ s => (State.Within.refl s).withFaults) h
  | readInterpreter p params => exact serve_withParams_within (fun x _ => readInterpreter_within x) h
  | readDaySummary p params => exact serve_withParams_within (fun x _ => readDaySummary_within x) h
  | resyncDistribution p params => exact serve_withParams_within (fun _ _ s => (State.Within.refl s).updateLink) h
  | portReset p params => exact serve_withParams_within (fun q _ => portReset_within q) h
  | readPlan p params => exact serve_withParams_within (fun x _ => readPlan_within x) h
  | readTariff p params => exact serve_withParams_within (fun _ _ s => .refl s) h

/-- Every step keeps the bounds: an event by `exec_within`, and an idle step because it changes the timebase and the queue of
commands alone (R1). -/
theorem step_within (s t : State) (h : step s = .next t) : s.Within t := by
  unfold step at h
  split at h
  · next c rest _ => exact (⟨id, id, id, id⟩ : s.Within { s with pending := rest }).trans (exec_within c _ t h)
  · refine State.Within.of_next ?_ h
    unfold State.idle
    split
    · exact ⟨id, id, id, id⟩
    · split
      · exact ⟨id, id, id, id⟩
      · dsimp only [State.countMs]
        split
        · exact ⟨id, id, id, fun _ => Nat.min_le_left ..⟩
        · exact ⟨id, id, id, id⟩

end Sys2Proof.Machine

namespace Sys2Proof.Proofs
open Sys2Proof Sys2Proof.Machine

/-- Settles O5: the bounds pass through every step (`step_within`), which is built from one lemma per operation. -/
theorem queuesAndTablesStayBounded : Obligations.QueuesAndTablesStayBounded :=
  ⟨fun s t hs h => (step_within s t h).ports hs, fun s t hs h => (step_within s t h).tables hs,
    fun s t hs h => (step_within s t h).waiting hs, fun s t hs h => (step_within s t h).now hs⟩

end Sys2Proof.Proofs
end

section
/-! SUPPORT. Scope, the step and the timers: what a count brings (R1), and the expiries and commands of the handover, the
bank, the stall watch and the stocktake, each as one equation of its event. -/

namespace Sys2Proof.Machine

/-! ### The events that one count brings (R1) -/

section due
variable (s : State)

theorem State.startupCheckComplete_mem_due : .startupCheckComplete ∈ s.due ↔ s.checkDue = true := by
  simp [State.due]

theorem State.handoverExpiry_mem_due (b : Fin 24) : .handoverExpiry b ∈ s.due ↔ (s.handoverDue b).isSome = true := by
  simp [State.due]

theorem State.stocktakeExpiry_mem_due : .stocktakeExpiry ∈ s.due ↔ s.stocktakeDue = true := by
  simp [State.due]

theorem State.debounceExpiry_mem_due : .debounceExpiry ∈ s.due ↔ s.debounceDue.isSome = true := by
  simp [State.due]

theorem State.tickWatchExpiry_mem_due : .tickWatchExpiry ∈ s.due ↔ s.tickWatchDue = true := by
  simp [State.due]

theorem State.stallWatchExpiry_mem_due : .stallWatchExpiry ∈ s.due ↔ s.stallDue = true := by
  simp [State.due]

/-- A count brings completions and expiries alone. -/
theorem State.mem_due_cases (c : Instr) (h : c ∈ s.due) : (∃ b, c = .handoverExpiry b) ∨
    c ∈ [.startupCheckComplete, .stocktakeExpiry, .debounceExpiry, .tickWatchExpiry, .stallWatchExpiry] := by
  simp only [State.due, List.mem_append, List.mem_ite_nil_right, List.mem_singleton, List.mem_map] at h
  rcases h with ((((⟨-, rfl⟩ | ⟨b, -, rfl⟩) | ⟨-, rfl⟩) | ⟨-, rfl⟩) | ⟨-, rfl⟩) | ⟨-, rfl⟩
  · simp
  · exact .inl ⟨b, rfl⟩
  all_goals simp

/-- A count brings each event once: its parts are of different events, and no booth stands twice in the handovers' part. -/
theorem State.due_nodup : s.due.Nodup := by
  have handovers : (((List.finRange 24).filter fun b => (s.handoverDue b).isSome).map Instr.handoverExpiry).Nodup :=
    ((List.nodup_finRange 24).filter _).map fun _ _ h => by cases h; rfl
  have one (b : Bool) (c : Instr) : (if b then [c] else []).Nodup := by cases b <;> simp
  unfold State.due
  refine List.nodup_append.mpr ⟨List.nodup_append.mpr ⟨List.nodup_append.mpr ⟨List.nodup_append.mpr
    ⟨List.nodup_append.mpr ⟨one .., handovers, ?_⟩, one .., ?_⟩, one .., ?_⟩, one .., ?_⟩, one .., ?_⟩
  all_goals grind

end due

end Sys2Proof.Machine

namespace Sys2Proof.Proofs
open Sys2Proof Sys2Proof.Machine

/-- Settles O1: the laws of the idle step (`State.idle_of_sendDue`, `State.idle_of_handling`,
`State.idle_of_nothing_due`), and what it means for each event to be due at the new count. -/
theorem stepRunsFrontCommand : Obligations.StepRunsFrontCommand := by
  have noSend (s : State) (h : s.powered = false ∨ s.link.phase ≠ .idle ∨ s.link.ready = false ∨
      s.link.anyPending = false) : s.sendDue = false := by
    rw [← Bool.not_eq_true, State.sendDue, Bool.and_eq_true, Link.opportunity_iff]
    grind
  have idle (s : State) (hs : s.pending = []) : step s = .next s.idle := by rw [step, hs]
  refine ⟨fun c rest s hs => by rw [step, hs], fun s hs hp hi hr hk => ?_, fun s p r hs hp ha hl hr hfirst => ?_,
    fun s hs hl hq => ?_⟩
  · rw [idle s hs, s.idle_of_sendDue]
    simp [State.sendDue, hp, Link.opportunity_iff, hi, hr, hk]
  · rw [idle s hs, s.idle_of_handling (noSend s (.inr hl))
      (s.nextHandling_first (by simp [State.operating, hp, ha]) p r hr hfirst)]
  · have hn := s.nextHandling_none (hq.elim (fun h => .inl (by simp [State.operating, h]))
      (·.imp (fun h => by simp [State.operating, h]) id))
    refine ⟨_, idle s hs, ?_⟩
    rw [s.idle_of_nothing_due (noSend s hl) hn]
    refine ⟨rfl, ?_, State.due_nodup _, ?_, fun b => ?_, ?_, ?_, ?_, ?_, State.mem_due_cases _⟩
    · unfold State.countMs
      split <;> rfl
    · rw [State.startupCheckComplete_mem_due, State.checkDue_iff]
      simp [State.operating, and_assoc]
    · rw [State.handoverExpiry_mem_due, Option.isSome_iff_exists]
      simp only [State.handoverDue_eq_some]
      simp [State.request]
    · rw [State.stocktakeExpiry_mem_due, State.stocktakeDue_iff]
      simp
    · rw [State.debounceExpiry_mem_due, Option.isSome_iff_exists]
      simp only [State.debounceDue_eq_some]
      simp [State.operating, and_assoc]
    · rw [State.tickWatchExpiry_mem_due, State.tickWatchDue_iff]
      simp
    · rw [State.stallWatchExpiry_mem_due, State.stallDue_iff]
      simp

end Sys2Proof.Proofs

namespace Sys2Proof.Machine

/-! ### The Booth Section's handovers -/

/-- A LIVE desk holds the program that its output names (R6). -/
theorem State.deskProgram_of_live {s : State} {d : DeskId} {id : Nat} {o : Output} (h : (s.desk d).state = .live id o) :
    s.deskProgram d = (s.boothConfig d.booth).outputs.get o := by
  unfold State.deskProgram
  rw [h]

/-- The forced handover to a free target, or to the program that the booth holds itself (R30). -/
theorem State.forceHandover_free {s : State} {b : Fin 24} {r : HandoverRequest} {held target : Prog}
    (hh : s.deskProgram ⟨b, r.liveDesk⟩ = some held) (ht : (s.boothConfig b).outputs.get r.output = some target)
    (hf : s.engaging held target = none) :
    s.forceHandover b r =
      ((s.cut ⟨b, r.liveDesk⟩ .forcedHandover).completeHandover b r.liveDesk r none 1).derivationPass := by
  unfold State.forceHandover
  simp only [hh, ht, hf]

section engaged
variable {s : State} {b : Fin 24} {r : HandoverRequest} {held target : Prog} {e : DeskId}
  (hh : s.deskProgram ⟨b, r.liveDesk⟩ = some held) (ht : (s.boothConfig b).outputs.get r.output = some target)
  (he : s.engaging held target = some e)
include hh ht he

/-- The forced handover to a target that another desk holds fails under INTERLOCK (R30). -/
theorem State.forceHandover_interlock (hm : (s.program target).config.engagement = .interlock) :
    s.forceHandover b r = s.failHandover b r.requester target e := by
  unfold State.forceHandover
  simp only [hh, ht, he, hm]

/-- The forced handover to a target that another desk holds cuts that desk under OVERRIDE (R30). -/
theorem State.forceHandover_override (hm : (s.program target).config.engagement = .override) :
    s.forceHandover b r =
      ((s.cut ⟨b, r.liveDesk⟩ .forcedHandover).completeHandover b r.liveDesk r (some e) 1).derivationPass := by
  unfold State.forceHandover
  simp only [hh, ht, he, hm]

end engaged

/-- HANDOVER_EXPIRY at a deadline that has been reached, under FORCE (R1, R30). -/
theorem exec_handoverExpiry_force {s : State} {b : Fin 24} {r : HandoverRequest} (h : s.handoverDue b = some r)
    (hp : (s.boothConfig b).policy = .force) : exec (.handoverExpiry b) s = .next (s.forceHandover b r) := by
  show execHandoverExpiry b s = _
  simp only [execHandoverExpiry, h, hp]

/-- HANDOVER_EXPIRY at a deadline that has been reached, under LAPSE (R1, R31). -/
theorem exec_handoverExpiry_lapse {s : State} {b : Fin 24} {r : HandoverRequest} (h : s.handoverDue b = some r)
    (hp : (s.boothConfig b).policy = .lapse) : exec (.handoverExpiry b) s = .next (s.dropRequest b .expired) := by
  show execHandoverExpiry b s = _
  simp only [execHandoverExpiry, h, hp]

/-- Before the deadline, and with no request, HANDOVER_EXPIRY is no event. -/
theorem exec_handoverExpiry_early {s : State} {b : Fin 24} (h : s.handoverDue b = none) :
    exec (.handoverExpiry b) s = .next s := by
  show execHandoverExpiry b s = _
  unfold execHandoverExpiry
  rw [h]

/-! ### The bank table and the health lines -/

theorem State.setBudget_apart (k : Fin 8) (v : Nat) : State.Apart fun s => s.setBudget k v := by
  intro s p c r l; cases p <;> rfl

/-- SET BANK BUDGET's parameters are read back (R69, R170). -/
theorem bankParams?_bytes (k : Fin 8) {v : Nat} (h : v < 256) : bankParams? (be 1 k.val ++ be 1 v) = some (k, v) := by
  show (index? 0 8 (BitVec.ofNat 8 k.val).toNat).map (fun bank => (bank, (BitVec.ofNat 8 v).toNat)) = _
  rw [byte_ofNat h, index?_eq k (by rw [byte_ofNat (by omega)]; omega)]
  rfl

/-- SET BANK BUDGET on a port that can take it: its body's effect under its answer (R69). -/
theorem exec_setBankBudget {s : State} {k : Fin 8} {v : Nat} (h : s.canTake .operator) (hv : v < 256) :
    exec (.setBankBudget .operator (be 1 k.val ++ be 1 v)) s = .next
      (let t := (s.answered .operator 0x59#8 (if v ≤ 32 then .ok else .okClamped) (be 1 (min 32 v))).setBudget k (min 32 v)
       if k = s.planner.bank ∧ min 32 v ≠ s.budget then t.allocationPass else t) := by
  show Host.Outcome.next (s.serve .operator 0x59#8 (be 1 k.val ++ be 1 v) _) = _
  congr 1
  rw [bankParams?_bytes k hv]
  have result : (if min 32 v = v then Result.ok else .okClamped) = if v ≤ 32 then .ok else .okClamped := by
    simp only [min_eq_right_iff]
  refine State.serve_apart s _ _ _ _
    (fun t => if k = s.planner.bank ∧ min 32 v ≠ s.budget then (t.setBudget k (min 32 v)).allocationPass
      else t.setBudget k (min 32 v)) _ _ h (by simp [be]) rfl rfl ?_ ?_
  · split
    · exact State.allocationPass_placeAnswer.comp (State.setBudget_apart k _)
    · exact State.setBudget_apart k _
  · simp only [withParams, setBankBudget, result, State.taken_planner, State.taken_budget]

end Sys2Proof.Machine

namespace Sys2Proof.Proofs
open Sys2Proof Sys2Proof.Machine

/-- Settles O32: the expiry policy decides, and under FORCE the engagement re-check
(`State.forceHandover_free`, `State.forceHandover_interlock`, `State.forceHandover_override`). -/
theorem handoverExpiryForcesOrLapses : Obligations.HandoverExpiryForcesOrLapses := by
  refine ⟨fun s b h => exec_handoverExpiry_early ?_, fun s b r hp hr hd => ?_⟩
  · by_contra k
    obtain ⟨r, hr⟩ := Option.ne_none_iff_exists'.mp k
    obtain ⟨-, hq, hd⟩ := (s.handoverDue_eq_some b r).mp hr
    exact absurd hd (Nat.not_le.mpr (h r hq))
  · have due := (s.handoverDue_eq_some b r).mpr ⟨hp, hr, hd⟩
    refine ⟨fun policy => exec_handoverExpiry_lapse due policy, fun id o held target policy hl hh ht => ?_⟩
    rw [exec_handoverExpiry_force due policy]
    have held' : s.deskProgram ⟨b, r.liveDesk⟩ = some held := (State.deskProgram_of_live hl).trans hh
    refine ⟨fun free => ?_, fun e ne he => ?_⟩
    · rw [State.forceHandover_free held' ht (by unfold State.engaging; grind)]
      rfl
    · have engaged : s.engaging held target = some e := (if_neg ne).trans he
      exact ⟨fun mode => congrArg _ (State.forceHandover_override held' ht engaged mode),
        fun mode => congrArg _ (State.forceHandover_interlock held' ht engaged mode)⟩

/-- Settles O40: SET BANK BUDGET under its answer, and the debounce by the two forms of its due candidate. -/
theorem banksFollowBudgetsAndHealthLines : Obligations.BanksFollowBudgetsAndHealthLines := by
  refine ⟨fun s k v h hv => ?_, fun s lines => ?_, fun s h => ?_, fun s u b since hp hr hc hs hu => ?_⟩
  · rw [exec_setBankBudget h hv]
    dsimp only
    refine ⟨fun same => ?_, fun bank differs => ?_⟩
    · rw [if_neg fun k => same.elim (absurd k.1) k.2]
    · rw [if_pos ⟨bank, differs⟩]
  · show (_ → execHealthLineChange lines s = _) ∧ (_ → _ → _ → execHealthLineChange lines s = _) ∧
      (_ → _ → execHealthLineChange lines s = _)
    unfold execHealthLineChange State.operating State.newCandidate
    refine ⟨fun h => by rw [if_pos h], fun h hp hr => by simp [h, hp, hr], fun h hp => ?_⟩
    rcases hp with hp | hp <;> simp [h, hp]
  · show execDebounceExpiry s = _
    have early : s.debounceDue = none := by
      by_contra k
      obtain ⟨b, hb⟩ := Option.ne_none_iff_exists'.mp k
      obtain ⟨ho, since, hc, hs⟩ := (s.debounceDue_eq_some b).mp hb
      simp only [State.operating, Bool.and_eq_true, Bool.not_eq_true'] at ho
      grind
    unfold execDebounceExpiry
    rw [early]
  · have due : s.debounceDue = some b :=
      (s.debounceDue_eq_some b).mpr ⟨by simp [State.operating, hp, hr], since, hc, hs⟩
    have startup : u.startup = s.startup := by
      rw [hu, State.notify_reports _ _ _ _ _ _]
    have event : exec .debounceExpiry s = .next (if u.starting then u else u.allocationPass) := by
      show execDebounceExpiry s = _
      unfold execDebounceExpiry
      rw [due, hu]
      rfl
    rw [event]
    refine ⟨fun h => by simp [State.starting, startup, h], fun h => by simp [State.starting, startup, h]⟩

end Sys2Proof.Proofs

namespace Sys2Proof.Machine

/-! ### The Distribution Link's keys -/

theorem Table.rows_replicate {α : Type} (n : Nat) (a : α) : (Table.replicate n a).rows = List.replicate n a := rfl

/-- With every key set, 105 are pending (R81, R89). -/
theorem Link.setAll_pendingCount (k : Link) : k.setAll.pendingCount = 105 := by
  simp [Link.setAll, Link.pendingCount, Table.rows_replicate]

theorem Link.setAll_anyPending (k : Link) : k.setAll.anyPending = true := rfl

/-- The stall watch is no part of the pending set (R81). -/
@[simp] theorem Link.watched_pendingCount (k : Link) (now : Nat) : (k.watched now).pendingCount = k.pendingCount := by
  unfold Link.watched
  split <;> rfl

/-- The stall watch runs while its three conditions hold, from when they came to hold together (R88). -/
theorem Link.watched_eq (k : Link) (now : Nat) :
    k.watched now = { k with stallSince :=
      if k.phase = .idle ∧ k.anyPending = true ∧ k.ready = false then some (k.stallSince.getD now) else none } := by
  unfold Link.watched
  simp only [Bool.not_eq_true]
  split <;> rfl

/-- READY deasserted: the watch runs on an IDLE link with a key pending (R87, R88). -/
theorem Link.seeReady_false_watched (k : Link) (now : Nat) :
    (k.seeReady false).watched now = { k with
      ready := false
      readyRead := if k.phase = .idle then false else k.readyRead
      stallSince := if k.phase = .idle ∧ k.anyPending = true then some (k.stallSince.getD now) else none } := by
  rw [Link.watched_eq, show (k.seeReady false).anyPending = k.anyPending from rfl]
  simp [Link.seeReady]

/-- Every key set: the watch runs on an IDLE link with READY deasserted (R88, R89). -/
theorem Link.setAll_watched (k : Link) (now : Nat) :
    k.setAll.watched now = { k.setAll with
      stallSince := if k.phase = .idle ∧ k.ready = false then some (k.stallSince.getD now) else none } := by
  rw [Link.watched_eq, Link.setAll_anyPending]
  simp [Link.setAll]

/-! ### The stocktake -/

/-- The slot map of STOCKTAKE END (R109): the slots of the marked receivers are empty and the others are kept. -/
theorem freeMarked_get (l : List Receiver) (slots : Table (Option Nat) 512) (k : Fin 512) :
    (freeMarked l slots).get k = if ∃ r ∈ l, r.mark = true ∧ r.slot = some k then none else slots.get k := by
  induction l generalizing slots with
  | nil => simp [freeMarked]
  | cons r rest ih =>
    show (freeMarked rest _).get k = _
    rw [ih]
    simp only [List.exists_mem_cons_iff]
    cases hm : r.mark with
    | false => simp
    | true =>
      cases hs : r.slot with
      | none => simp
      | some j =>
        by_cases e : j = k
        · subst e; simp
        · simp [Table.get_set_other _ _ _ _ e, e]

/-- The racked states are READY and CHARGING (R93). -/
theorem ReceiverState.racked_eq (x : ReceiverState) : x.racked = decide (x = .ready ∨ x = .charging) := by
  cases x <;> rfl

/-- The slot map replaced as a whole. -/
def State.withSlots (s : State) (slots : Table (Option Nat) 512) : State :=
  { s with registry := { s.registry with slots := slots } }

theorem State.withSlots_apart (slots : Table (Option Nat) 512) : State.Apart fun s => s.withSlots slots := by
  intro s p c r l; cases p <;> rfl

/-- STOCKTAKE END while a stocktake runs: its body's effect under its answer (R109). -/
theorem exec_stocktakeEnd_running {s : State} (h : s.canTake .hire) (run : s.registry.stocktake.running = true) :
    exec (.stocktakeEnd .hire []) s = .next
      ((((s.answered .hire 0x3B#8 .ok (be 2 (s.registry.receivers.countP (·.mark))
        ++ be 2 s.registry.stocktake.markedAtStart)).withSlots
          (freeMarked s.registry.receivers s.registry.slots)).setReceivers
            (s.registry.receivers.map Receiver.endStocktake)).setStocktake .idle) := by
  refine congrArg _ (State.serve_apart s .hire 0x3B#8 [] _ _ _ _ h (Nat.zero_le _) rfl rfl
    ((State.setStocktake_apart _).comp ((State.setReceivers_apart _).comp (State.withSlots_apart _))) ?_)
  show stocktakeEnd () _ = _
  simp only [stocktakeEnd, State.taken_registry, run, if_true, List.countP_eq_length_filter]
  rfl

end Sys2Proof.Machine

namespace Sys2Proof.Proofs
open Sys2Proof Sys2Proof.Machine

/-- Settles O44: the stall watch by `Link.watched_eq`, its expiry by `State.stallDue_iff`, and RESYNC DISTRIBUTION under its
answer. -/
theorem theStallWatchAndResyncRunOnTheKeys : Obligations.TheStallWatchAndResyncRunOnTheKeys := by
  refine ⟨fun s hp => ?_, fun s since hp hs => ⟨fun he hn => ?_, fun h => ?_⟩, fun s h => ?_⟩
  · show execReadyDeassert s = _
    unfold execReadyDeassert State.updateLink
    rw [if_pos hp, Link.seeReady_false_watched]
  · have due : s.stallDue = true := s.stallDue_iff.mpr ⟨hp, he, since, hs, hn⟩
    show execStallWatchExpiry s = _
    unfold execStallWatchExpiry
    rw [if_pos due]
    rfl
  · have early : ¬ s.stallDue = true := fun k => by
      obtain ⟨-, he, t, ht, hn⟩ := s.stallDue_iff.mp k
      grind
    show execStallWatchExpiry s = _
    unfold execStallWatchExpiry
    rw [if_neg early]
  · have event : exec (.resyncDistribution .operator []) s = .next
        ((s.answered .operator 0x66#8 .ok (be 1 (105 - s.link.pendingCount))).updateLink Link.setAll) :=
      congrArg _ (State.serve_apart s .operator 0x66#8 [] _ _ _ _ h (Nat.zero_le _) rfl rfl
        (State.updateLink_apart Link.setAll) rfl)
    refine ⟨_, event, ?_⟩
    have link : ((s.answered .operator 0x66#8 .ok (be 1 (105 - s.link.pendingCount))).updateLink Link.setAll).link
        = s.link.setAll.watched s.now := rfl
    rw [link]
    refine ⟨rfl, ?_, ?_, fun p => ?_, fun i => ?_, ?_⟩
    · rw [Link.watched_pendingCount, Link.setAll_pendingCount]
    all_goals rw [Link.setAll_watched]
    · rfl
    · exact Table.get_replicate true p
    · exact Table.get_replicate true i
    · rfl

/-- Settles O50: the commands under their answers, and the slot map of STOCKTAKE END by `freeMarked_get`. -/
theorem theStocktakeMarksEndsAndExpires : Obligations.TheStocktakeMarksEndsAndExpires := by
  refine ⟨fun s h => ⟨fun run => ?_, fun idle k hk => ?_, fun idle => ?_, fun run => ?_⟩, fun s hp => ⟨?_, ?_⟩⟩
  · refine congrArg _ (State.serve_plain s .hire 0x3A#8 [] _ .busy [] h (Nat.zero_le _) rfl rfl ?_)
    show stocktakeStart () _ = _
    simp [stocktakeStart, run, State.refuse]
  · refine congrArg _ (State.serve_apart s .hire 0x3A#8 [] _ _ _ _ h (Nat.zero_le _) rfl rfl
      ((State.setStocktake_apart _).comp (State.setReceivers_apart _)) ?_)
    show stocktakeStart () _ = _
    rw [List.countP_eq_length_filter] at hk
    simp only [stocktakeStart, State.taken_registry, idle, Bool.false_eq_true, if_false, State.taken_now, stocktakeWindow,
      ReceiverState.racked_eq, hk]
  · refine congrArg _ (State.serve_plain s .hire 0x3B#8 [] _ .notActive [] h (Nat.zero_le _) rfl rfl ?_)
    show stocktakeEnd () _ = _
    simp [stocktakeEnd, idle, State.refuse]
  · refine ⟨freeMarked s.registry.receivers s.registry.slots, fun k hk => ?_, fun k hk => ?_, ?_⟩
    · rw [freeMarked_get, if_pos hk]
    · rw [freeMarked_get, if_neg (by grind)]
    · exact exec_stocktakeEnd_running h run
  · intro t run hd hn
    have due : s.stocktakeDue = true := s.stocktakeDue_iff.mpr ⟨hp, run, t, hd, hn⟩
    show execStocktakeExpiry s = _
    unfold execStocktakeExpiry
    rw [if_pos due]
    rfl
  · intro h
    have early : ¬ s.stocktakeDue = true := fun k => by
      obtain ⟨-, run, t, ht, hn⟩ := s.stocktakeDue_iff.mp k
      grind
    show execStocktakeExpiry s = _
    unfold execStocktakeExpiry
    rw [if_neg early]

end Sys2Proof.Proofs
end

section
/-! SUPPORT. Scope, the tick: a notice leaves the tables apart, so that a tick is its notices on the tables that it leaves
(`State.fullTick_eq`), and the tables are told one by one (R19, R20, R79, R130, R154, R158). -/

namespace Sys2Proof.Machine

/-! ### Notices neither read nor write the tables that a tick counts in -/

/-- The tables that a tick counts in, replaced. -/
def State.withTables (s : State) (b : BoothSection) (p : Table Program 32) (h : HireTable) (r : Retention) : State :=
  { s with booth := b, programs := p, hires := h, retention := r }

/-- `t` is `s` but for the tables that a tick counts in: the two report alike. -/
def State.ReportsAs (s t : State) : Prop := t = s.withTables t.booth t.programs t.hires t.retention

section withTables
variable (b : BoothSection) (p : Table Program 32) (h : HireTable) (r : Retention)

theorem State.withTables_reportsAs (s : State) : s.ReportsAs (s.withTables b p h r) := rfl

theorem State.offer_withTables (s : State) (q : Port) (n : Notice) :
    (s.withTables b p h r).offer q n = ((s.offer q n).1.withTables b p h r, (s.offer q n).2) := by
  have port : (s.withTables b p h r).port q = s.port q := by cases q <;> rfl
  have set (v : PortState) : (s.withTables b p h r).setPort q v = (s.setPort q v).withTables b p h r := by cases q <;> rfl
  unfold State.offer
  dsimp only
  rw [port, set, set]
  split
  · rfl
  · split <;> rfl

theorem State.withFaults_withTables (s : State) (c : FaultCapture) :
    (s.withTables b p h r).withFaults c = (s.withFaults c).withTables b p h r := rfl

theorem State.raiseNow_withTables (s : State) (f : FaultKind) (n : Nat) :
    (s.withTables b p h r).raiseNow f n = (s.raiseNow f n).withTables b p h r := by
  rw [State.raiseNow_eq, State.raiseNow_eq, show (s.withTables b p h r).session = s.session from rfl,
    show (s.withTables b p h r).faults = s.faults from rfl]
  generalize s.faults.take f n s.session.clock = raised
  obtain ⟨cap, latched⟩ := raised
  dsimp only
  rw [State.withFaults_withTables, State.offer_withTables]
  cases latched with
  | false => rfl
  | true =>
    generalize State.offer _ _ _ = offered
    obtain ⟨u, dropped⟩ := offered
    cases dropped <;> rfl

theorem State.raiseFault_withTables (s : State) (f : FaultKind) (n : Nat) :
    (s.withTables b p h r).raiseFault f n = (s.raiseFault f n).withTables b p h r := by
  unfold State.raiseFault
  rw [show (s.withTables b p h r).starting = s.starting from rfl]
  split
  · rfl
  · exact s.raiseNow_withTables b p h r f n

theorem State.foldl_withTables {α : Type} {f : State → α → State}
    (hf : ∀ s a, f (s.withTables b p h r) a = (f s a).withTables b p h r) (l : List α) (s : State) :
    l.foldl f (s.withTables b p h r) = (l.foldl f s).withTables b p h r := by
  induction l generalizing s with
  | nil => rfl
  | cons a rest ih => rw [List.foldl_cons, hf, ih, List.foldl_cons]

theorem State.offerAll_withTables (ports : List Port) (s : State) (n : Notice) :
    (s.withTables b p h r).offerAll ports n = ((s.offerAll ports n).1.withTables b p h r, (s.offerAll ports n).2) := by
  induction ports generalizing s with
  | nil => rfl
  | cons q rest ih =>
    unfold State.offerAll
    rw [State.offer_withTables]
    dsimp only
    rw [ih]

/-- A notice leaves the tables apart: they may be written before it or after it. -/
theorem State.notify_withTables (s : State) (k : NoticeKind) (w x y z : Nat) :
    (s.withTables b p h r).notify k w x y z = (s.notify k w x y z).withTables b p h r := by
  unfold State.notify
  rw [show (s.withTables b p h r).session = s.session from rfl, State.offerAll_withTables]
  exact State.foldl_withTables b p h r (fun s q => s.raiseFault_withTables b p h r _ _) _ _

end withTables

theorem State.ReportsAs.refl (s : State) : s.ReportsAs s := rfl

theorem State.ReportsAs.trans {s t u : State} (h : s.ReportsAs t) (k : t.ReportsAs u) : s.ReportsAs u := by
  unfold State.ReportsAs at *
  rw [k, h]
  rfl

theorem State.ReportsAs.notify {s t : State} (h : s.ReportsAs t) {k : NoticeKind} {w x y z : Nat} :
    (s.notify k w x y z).ReportsAs (t.notify k w x y z) := by
  unfold State.ReportsAs at h
  rw [h, State.notify_withTables]
  rfl

/-! ### The check words (R185) -/

/-- `t` has the supply marker of `s`, and its words agree where those of `s` do. -/
structure State.KeepsWords (s t : State) : Prop where
  marker : t.retention.marker = s.retention.marker
  words : s.wordsAgree → t.wordsAgree

theorem State.KeepsWords.trans {s t u : State} (h : s.KeepsWords t) (k : t.KeepsWords u) : s.KeepsWords u :=
  ⟨k.marker.trans h.marker, k.words ∘ h.words⟩

theorem State.KeepsWords.of_eq {s t : State} (h : t.retention = s.retention) : s.KeepsWords t :=
  ⟨by rw [h], fun w => by unfold State.wordsAgree; rw [h]; exact w⟩

/-- A word that is recomputed agrees. -/
theorem State.KeepsWords.of_rewrite {s t : State} {g : Fin 10} (h : t.retention = (s.rewrite g).retention) :
    s.KeepsWords t := by
  refine ⟨by rw [h]; rfl, fun w x hx => ?_⟩
  rw [h] at hx
  exact (List.mem_or_eq_of_mem_set hx).elim (w x) id

/-! ### The desks at a tick (R19, R20) -/

@[simp] theorem deskAt_idx (d : DeskId) : deskAt d.idx = d := by
  obtain ⟨b, q⟩ := d
  simp only [deskAt, DeskId.idx, DeskId.mk.injEq]
  exact ⟨Fin.ext (by dsimp; omega), Fin.ext (by dsimp; omega)⟩

@[simp] theorem idx_deskAt (i : Fin 72) : (deskAt i).idx = i := by
  refine Fin.ext ?_
  simp only [deskAt, DeskId.idx]
  omega

theorem State.modifyDesk_desk (s : State) (d e : DeskId) (f : Desk → Desk) :
    (s.modifyDesk d f).desk e = if d = e then f (s.desk d) else s.desk e := by
  have idx : d.idx = e.idx ↔ d = e := ⟨fun h => by rw [← deskAt_idx d, h, deskAt_idx], congrArg _⟩
  show (s.booth.desks.modify d.idx f).get e.idx = _
  rw [Table.get_modify]
  simp only [idx]
  rfl

theorem State.Reports.booth {s t : State} (h : s.Reports t) : t.booth = s.booth := by
  rw [show t = _ from h]

theorem State.Reports.desk {s t : State} (h : s.Reports t) (d : DeskId) : t.desk d = s.desk d := by
  unfold State.desk
  rw [h.booth]

/-- The turn-due flag of a desk that has counted the tick (R20). -/
def Desk.checkTurn (limit : Nat) (r : Desk) : Desk :=
  { r with turnDue := r.turnDue || decide (r.state.isLive = true ∧ limit * 60 ≤ r.turnSeconds) }

/-- A LIVE desk whose turn has reached the limit with its flag clear (R20). -/
abbrev Desk.reachesTurn (limit : Nat) (r : Desk) : Prop :=
  r.state.isLive = true ∧ r.turnDue = false ∧ limit * 60 ≤ r.turnSeconds

theorem Desk.checkTurn_of_reaches {limit : Nat} {r : Desk} (h : r.reachesTurn limit) :
    r.checkTurn limit = { r with turnDue := true } := by
  obtain ⟨live, -, reached⟩ := h
  simp [Desk.checkTurn, live, reached]

theorem Desk.checkTurn_of_not {limit : Nat} {r : Desk} (h : ¬ r.reachesTurn limit) : r.checkTurn limit = r := by
  have flag : (r.turnDue || decide (r.state.isLive = true ∧ limit * 60 ≤ r.turnSeconds)) = r.turnDue := by
    unfold Desk.reachesTurn at h
    cases hd : r.turnDue <;> simp_all
  unfold Desk.checkTurn
  rw [flag]

/-- Everything R20's check of one desk can do. -/
theorem State.checkTurn_cases (s : State) (d : DeskId) :
    ((s.desk d).reachesTurn (s.boothConfig d.booth).turnLimit ∧ ∃ id o, (s.desk d).state = .live id o ∧
      s.checkTurn d = (s.modifyDesk d fun r => { r with turnDue := true }).notify .turnDue (boothNo d.booth) (posNo d.pos)
        id ((s.desk d).turnSeconds / 60)) ∨
    (¬ (s.desk d).reachesTurn (s.boothConfig d.booth).turnLimit ∧ s.checkTurn d = s) := by
  unfold State.checkTurn Desk.reachesTurn
  dsimp only
  cases hs : (s.desk d).state with
  | vacant => simp [DeskState.isLive]
  | ready id => simp [DeskState.isLive]
  | live id o =>
    simp only [DeskState.isLive, true_and, Bool.not_eq_true]
    split
    · next due => exact .inl ⟨due, id, o, rfl, rfl⟩
    · next due => exact .inr ⟨due, rfl⟩

/-- R20's check of one desk touches that desk, the ports and the capture alone. -/
theorem State.checkTurn_frame (s : State) (d : DeskId) :
    s.checkTurn d = { s with
      booth := { s.booth with desks := (s.checkTurn d).booth.desks }
      ports := (s.checkTurn d).ports
      faults := (s.checkTurn d).faults } := by
  have notify := State.notify_reports
  unfold State.Reports at notify
  rcases s.checkTurn_cases d with ⟨-, id, o, -, e⟩ | ⟨-, e⟩ <;> rw [e]
  rw [notify]
  rfl

theorem State.checkTurn_desk (s : State) (d e : DeskId) :
    (s.checkTurn d).desk e = if d = e then (s.desk d).checkTurn (s.boothConfig d.booth).turnLimit else s.desk e := by
  rcases s.checkTurn_cases d with ⟨reaches, id, o, -, h⟩ | ⟨not, h⟩ <;> rw [h]
  · rw [Desk.checkTurn_of_reaches reaches]
    rw [(State.notify_reports _ _ _ _ _ _).desk, State.modifyDesk_desk]
  · rw [Desk.checkTurn_of_not not]
    split
    · next same => rw [same]
    · rfl

/-- The TURN_DUE notice of desk `i`, if the tick that finds state `s` brings its turn to its booth's limit (R20). -/
def State.turnNotice (s v : State) (i : Fin 72) : State :=
  match (s.desk (deskAt i)).state with
  | .live id _ =>
    if s.session.state = .live ∧ (s.desk (deskAt i)).turnDue = false ∧
        (s.boothConfig (deskAt i).booth).turnLimit * 60 ≤ min 65535 ((s.desk (deskAt i)).turnSeconds + 1) then
      v.notify .turnDue ((deskAt i).booth.val + 1) ((deskAt i).pos.val + 1) id
        (min 65535 ((s.desk (deskAt i)).turnSeconds + 1) / 60)
    else v
  | _ => v

/-- What R20's check reads of a desk that has counted the tick (R19, R20). -/
theorem Desk.countTick_reachesTurn (limit : Nat) (r : Desk) : r.countTick.reachesTurn limit ↔
    r.state.isLive = true ∧ r.turnDue = false ∧ limit * 60 ≤ min 65535 (r.turnSeconds + 1) := by
  unfold Desk.reachesTurn Desk.countTick
  split <;> simp_all

/-- R20's check of a desk that has counted the tick reports as its notice does. -/
theorem State.ReportsAs.checkTurn {s w v : State} {i : Fin 72} (h : w.ReportsAs v) (hl : s.session.state = .live)
    (hc : v.booth.configs = s.booth.configs) (hd : v.desk (deskAt i) = (s.desk (deskAt i)).countTick) :
    (s.turnNotice w i).ReportsAs (v.checkTurn (deskAt i)) := by
  have config : v.boothConfig (deskAt i).booth = s.boothConfig (deskAt i).booth := by
    unfold State.boothConfig
    rw [hc]
  have state : (s.desk (deskAt i)).countTick.state = (s.desk (deskAt i)).state := by
    unfold Desk.countTick
    split <;> rfl
  unfold State.turnNotice
  rcases v.checkTurn_cases (deskAt i) with ⟨reaches, id, o, live, e⟩ | ⟨not, e⟩ <;> rw [e]
  · rw [hd, config, Desk.countTick_reachesTurn] at reaches
    rw [hd, state] at live
    have seconds : (v.desk (deskAt i)).turnSeconds = min 65535 ((s.desk (deskAt i)).turnSeconds + 1) := by
      rw [hd, Desk.countTick, if_pos reaches.1]
    rw [live, seconds]
    dsimp only
    rw [if_pos ⟨hl, reaches.2⟩]
    exact State.ReportsAs.notify (h.trans (State.withTables_reportsAs ..))
  · rw [hd, config, Desk.countTick_reachesTurn] at not
    split
    · next live => rwa [if_neg fun k => not ⟨by rw [live]; rfl, k.2⟩]
    · exact h

/-- R20 over the desks of a list, each of which has counted the tick. -/
theorem State.foldl_checkTurn {s : State} (hl : s.session.state = .live) (l : List (Fin 72)) (nodup : l.Nodup)
    (w v : State) (h : w.ReportsAs v) (hc : v.booth.configs = s.booth.configs)
    (hd : ∀ i ∈ l, v.desk (deskAt i) = (s.desk (deskAt i)).countTick) :
    (l.foldl s.turnNotice w).ReportsAs (l.foldl (fun v i => v.checkTurn (deskAt i)) v) ∧
      ∀ d : DeskId, (l.foldl (fun v i => v.checkTurn (deskAt i)) v).desk d =
        if d.idx ∈ l then (v.desk d).checkTurn (s.boothConfig d.booth).turnLimit else v.desk d := by
  induction l generalizing w v with
  | nil => exact ⟨h, fun d => by simp⟩
  | cons i rest ih =>
    obtain ⟨hi, nodup⟩ := List.nodup_cons.mp nodup
    have configs : (v.checkTurn (deskAt i)).booth.configs = s.booth.configs := by
      rw [State.checkTurn_frame]; exact hc
    have others (j : Fin 72) (hj : j ≠ i) : (v.checkTurn (deskAt i)).desk (deskAt j) = v.desk (deskAt j) := by
      rw [State.checkTurn_desk, if_neg fun e => hj (by rw [← idx_deskAt j, ← e, idx_deskAt])]
    obtain ⟨reports, desks⟩ := ih nodup _ _ (h.checkTurn hl hc (hd i (List.mem_cons_self ..))) configs fun j hj => by
      rw [others j (fun e => hi (e ▸ hj))]
      exact hd j (List.mem_cons_of_mem _ hj)
    refine ⟨reports, fun d => ?_⟩
    rw [List.foldl_cons, desks d]
    have limit : v.boothConfig d.booth = s.boothConfig d.booth := by
      unfold State.boothConfig
      rw [hc]
    by_cases e : d.idx = i
    · subst e
      rw [if_neg hi, if_pos (List.mem_cons_self ..), State.checkTurn_desk]
      simp [limit]
    · have := others d.idx e
      rw [deskAt_idx] at this
      simp [this, e]

/-! ### The Booth Section's part of a tick (R19, R20) -/

theorem State.foldl_checkTurn_frame (l : List DeskId) (s : State) :
    l.foldl State.checkTurn s = { s with
      booth := { s.booth with desks := (l.foldl State.checkTurn s).booth.desks }
      ports := (l.foldl State.checkTurn s).ports
      faults := (l.foldl State.checkTurn s).faults } := by
  induction l generalizing s with
  | nil => rfl
  | cons d rest ih => rw [List.foldl_cons, ih, State.checkTurn_frame]

/-- R20's check of every desk touches the desks, the ports and the capture alone. -/
theorem State.checkTurns_frame (s : State) :
    s.checkTurns = { s with
      booth := { s.booth with desks := s.checkTurns.booth.desks }
      ports := s.checkTurns.ports
      faults := s.checkTurns.faults } := by
  have fold : s.checkTurns = ((List.finRange 72).map deskAt).foldl State.checkTurn s := by
    rw [List.foldl_map]
    rfl
  rw [fold]
  exact State.foldl_checkTurn_frame _ s

theorem State.boothTick_live {s : State} (h : s.session.state = .live) : s.boothTick = s.countAirTime.checkTurns :=
  if_pos h

theorem State.boothTick_idle {s : State} (h : s.session.state ≠ .live) : s.boothTick = s := if_neg h

/-- The Booth Section's part of a tick touches the desks, the interpreters, the words, the ports and the capture alone. -/
theorem State.boothTick_frame (s : State) :
    s.boothTick = { s with
      booth := { s.booth with desks := s.boothTick.booth.desks, interpreters := s.boothTick.booth.interpreters }
      retention := s.boothTick.retention
      ports := s.boothTick.ports
      faults := s.boothTick.faults } := by
  by_cases h : s.session.state = .live
  · have frame := s.countAirTime.checkTurns_frame
    rw [State.boothTick_live h]
    generalize s.countAirTime.checkTurns = t at frame ⊢
    rw [frame]
    rfl
  · rw [State.boothTick_idle h]

theorem State.countAirTime_desk (s : State) (d : DeskId) : s.countAirTime.desk d = (s.desk d).countTick := by
  show (s.booth.desks.map Desk.countTick).get d.idx = _
  rw [Table.get_map]
  rfl

/-- The desks and the reports of R20, in a LIVE session. -/
theorem State.checkTurns_live {s : State} (h : s.session.state = .live) :
    ((List.finRange 72).foldl s.turnNotice s).ReportsAs s.countAirTime.checkTurns ∧
      ∀ d, s.countAirTime.checkTurns.desk d = (s.desk d).countTick.checkTurn (s.boothConfig d.booth).turnLimit := by
  obtain ⟨reports, desks⟩ := State.foldl_checkTurn h (List.finRange 72) (List.nodup_finRange 72) s s.countAirTime rfl rfl
    fun i _ => s.countAirTime_desk (deskAt i)
  refine ⟨reports, fun d => (desks d).trans ?_⟩
  rw [if_pos (List.mem_finRange _), State.countAirTime_desk]

/-- Outside a LIVE session no desk brings a TURN_DUE notice. -/
theorem State.foldl_turnNotice_idle {s : State} (h : s.session.state ≠ .live) (l : List (Fin 72)) (v : State) :
    l.foldl s.turnNotice v = v := by
  induction l with
  | nil => rfl
  | cons i rest ih =>
    have none : s.turnNotice v i = v := by
      unfold State.turnNotice
      split
      · rw [if_neg fun k => h k.1]
      · rfl
    rw [List.foldl_cons, none, ih]

theorem State.boothTick_reportsAs (s : State) : ((List.finRange 72).foldl s.turnNotice s).ReportsAs s.boothTick := by
  by_cases h : s.session.state = .live
  · rw [State.boothTick_live h]
    exact (State.checkTurns_live h).1
  · rw [State.boothTick_idle h, State.foldl_turnNotice_idle h]
    exact .refl s

/-- A desk after a tick (R19, R20). -/
theorem State.boothTick_desk (s : State) (d : DeskId) :
    s.boothTick.desk d = { s.desk d with
      turnSeconds := if s.session.state = .live ∧ (s.desk d).state.isLive = true
        then min 65535 ((s.desk d).turnSeconds + 1) else (s.desk d).turnSeconds
      turnDue := (s.desk d).turnDue || decide (s.session.state = .live ∧ (s.desk d).state.isLive = true ∧
        (s.boothConfig d.booth).turnLimit * 60 ≤ min 65535 ((s.desk d).turnSeconds + 1)) } := by
  by_cases h : s.session.state = .live
  · rw [State.boothTick_live h, (State.checkTurns_live h).2]
    cases hs : (s.desk d).state.isLive <;> simp [Desk.checkTurn, Desk.countTick, h, hs]
  · rw [State.boothTick_idle h]
    simp [h]

/-- The interpreters after a tick (R19). -/
theorem State.boothTick_interpreters (s : State) :
    s.boothTick.booth.interpreters = s.booth.interpreters.map fun e =>
      if s.session.state = .live ∧ s.onAirNow e.id = true then { e with onAir := min 16777215 (e.onAir + 1) } else e := by
  by_cases h : s.session.state = .live
  · rw [State.boothTick_live h, State.checkTurns_frame]
    simp only [h, true_and]
    rfl
  · rw [State.boothTick_idle h]
    simp [h]

theorem State.boothTick_keepsWords (s : State) : s.KeepsWords s.boothTick := by
  by_cases h : s.session.state = .live
  · rw [State.boothTick_live h]
    exact .of_rewrite (g := 7) (by rw [State.checkTurns_frame]; rfl)
  · rw [State.boothTick_idle h]
    exact .of_eq rfl

/-! ### The Program Table's part of a tick (R79) -/

theorem State.outageTick_frame (s : State) :
    s.outageTick = { s with programs := s.outageTick.programs, retention := s.outageTick.retention } := by
  unfold State.outageTick
  split <;> rfl

theorem State.outageTick_program (s : State) (p : Prog) :
    s.outageTick.program p = { s.program p with outage :=
      if s.session.state = .live ∧ (s.program p).radiation = .shed then (s.program p).outage + 1
      else (s.program p).outage } := by
  by_cases h : s.session.state = .live
  · rw [State.outageTick, if_pos h]
    show (s.programs.mapIdx _).get p = _
    rw [Table.get_mapIdx]
    simp only [h, true_and]
    show (if (s.program p).radiation = .shed then _ else _) = _
    split <;> rfl
  · rw [State.outageTick, if_neg h]
    simp [h]

theorem State.outageTick_keepsWords (s : State) : s.KeepsWords s.outageTick := by
  unfold State.outageTick
  split
  · exact .of_rewrite (g := 4) rfl
  · exact .of_eq rfl

/-! ### The Hire Table's part of a tick (R130) -/

/-- An OPEN hire that has reached its plan's limit with its flag clear (R130). -/
abbrev Hire.reachesLimit (limit : Nat) (clock : HallTime) (h : Hire) : Prop :=
  h.state = .opened ∧ h.overdue = false ∧ h.openedAt.abs + limit * 3600 ≤ clock.abs

/-- Everything R130's check of one hire can do. -/
theorem State.checkOverdue_cases (s : State) (h : Hire) :
    (h.reachesLimit (s.tariff h.plan).hireLimit s.session.clock ∧
      s.checkOverdue h = (s.modifyHire h.number fun x => { x with overdue := true }).notify .hireOverdue h.number
        h.plan.val (s.tariff h.plan).hireLimit h.outCount) ∨
    (¬ h.reachesLimit (s.tariff h.plan).hireLimit s.session.clock ∧ s.checkOverdue h = s) := by
  unfold State.checkOverdue Hire.reachesLimit
  simp only [Bool.not_eq_true]
  split
  · next reaches => exact .inl ⟨reaches, rfl⟩
  · next not => exact .inr ⟨not, rfl⟩

/-- R130's check of one hire touches the hire records, the words, the ports and the capture alone. -/
theorem State.checkOverdue_frame (s : State) (h : Hire) :
    s.checkOverdue h = { s with
      hires := { s.hires with records := (s.checkOverdue h).hires.records }
      retention := (s.checkOverdue h).retention
      ports := (s.checkOverdue h).ports
      faults := (s.checkOverdue h).faults } := by
  have notify := State.notify_reports
  unfold State.Reports at notify
  rcases s.checkOverdue_cases h with ⟨-, e⟩ | ⟨-, e⟩ <;> rw [e]
  rw [notify]
  rfl

theorem State.checkOverdue_keepsWords (s : State) (h : Hire) : s.KeepsWords (s.checkOverdue h) := by
  rcases s.checkOverdue_cases h with ⟨-, e⟩ | ⟨-, e⟩ <;> rw [e]
  · exact .of_rewrite (g := 1) (by rw [show State.notify _ _ _ _ _ _ = _ from State.notify_reports _ _ _ _ _ _]; rfl)
  · exact .of_eq rfl

/-- The HIRE_OVERDUE notice of hire `h`, if it reaches its plan's limit at `clock` (R130). -/
def State.overdueNotice (s : State) (clock : HallTime) (v : State) (h : Hire) : State :=
  if h.state = .opened ∧ h.overdue = false ∧
      h.openedAt.abs + (s.settlement.tariffs.get h.plan).hireLimit * 3600 ≤ clock.abs then
    v.notify .hireOverdue h.number h.plan.val (s.settlement.tariffs.get h.plan).hireLimit
      (h.lines.countP fun l => l.state = .out)
  else v

theorem Hire.outCount_eq (h : Hire) : h.outCount = h.lines.countP fun l => l.state = .out := by
  rw [Hire.outCount, ← List.countP_eq_length_filter]
  rfl

/-- R130's check reports as its notice does. -/
theorem State.ReportsAs.checkOverdue {s w v : State} {h : Hire} {clock : HallTime} (r : w.ReportsAs v)
    (ht : v.settlement = s.settlement) (hc : v.session.clock = clock) :
    (s.overdueNotice clock w h).ReportsAs (v.checkOverdue h) := by
  have tariff : v.tariff h.plan = s.settlement.tariffs.get h.plan := by rw [State.tariff, ht]
  unfold State.overdueNotice
  rcases v.checkOverdue_cases h with ⟨reaches, e⟩ | ⟨not, e⟩ <;> rw [e]
  · rw [tariff, hc] at reaches
    rw [if_pos reaches, tariff, Hire.outCount_eq]
    exact State.ReportsAs.notify (r.trans (State.withTables_reportsAs ..))
  · rw [tariff, hc] at not
    rwa [if_neg not]

/-- A hire with its overdue flag set, if `p` holds. -/
def Hire.flagIf (p : Prop) [Decidable p] (h : Hire) : Hire := if p then { h with overdue := true } else h

theorem Hire.flagIf_flagIf (p q : Prop) [Decidable p] [Decidable q] (h : Hire) :
    (h.flagIf p).flagIf q = h.flagIf (p ∨ q) := by
  unfold Hire.flagIf
  by_cases hp : p <;> by_cases hq : q <;> simp [hp, hq]

theorem Hire.flagIf_number (p : Prop) [Decidable p] (h : Hire) : (h.flagIf p).number = h.number := by
  unfold Hire.flagIf
  split <;> rfl

/-- The records after R130's check of one hire. -/
theorem State.checkOverdue_records (s : State) (h : Hire) :
    (s.checkOverdue h).hires.records = s.hires.records.map fun x => x.flagIf
      (h.reachesLimit (s.tariff h.plan).hireLimit s.session.clock ∧ x.number = h.number) := by
  rcases s.checkOverdue_cases h with ⟨reaches, e⟩ | ⟨not, e⟩ <;> rw [e]
  · rw [show State.notify _ _ _ _ _ _ = _ from State.notify_reports _ _ _ _ _ _]
    simp only [eq_true reaches, true_and, Hire.flagIf]
    rfl
  · simp [not, Hire.flagIf]

/-- R130 over the hires of a list touches the hire records, the words, the ports and the capture alone. -/
theorem State.foldl_checkOverdue_frame (l : List Hire) (s : State) :
    l.foldl State.checkOverdue s = { s with
      hires := { s.hires with records := (l.foldl State.checkOverdue s).hires.records }
      retention := (l.foldl State.checkOverdue s).retention
      ports := (l.foldl State.checkOverdue s).ports
      faults := (l.foldl State.checkOverdue s).faults } := by
  induction l generalizing s with
  | nil => rfl
  | cons h rest ih => rw [List.foldl_cons, ih, State.checkOverdue_frame]

theorem State.foldl_checkOverdue_keepsWords (l : List Hire) (s : State) :
    s.KeepsWords (l.foldl State.checkOverdue s) := by
  induction l generalizing s with
  | nil => exact .of_eq rfl
  | cons h rest ih => exact (s.checkOverdue_keepsWords h).trans (ih _)

/-- R130 over the hires of a list reports as their notices do. -/
theorem State.ReportsAs.foldl_checkOverdue {s w v : State} {clock : HallTime} (l : List Hire) (r : w.ReportsAs v)
    (ht : v.settlement = s.settlement) (hc : v.session.clock = clock) :
    (l.foldl (s.overdueNotice clock) w).ReportsAs (l.foldl State.checkOverdue v) := by
  induction l generalizing w v with
  | nil => exact r
  | cons h rest ih =>
    refine ih (r.checkOverdue ht hc) ?_ ?_ <;> rw [State.checkOverdue_frame]
    · exact ht
    · exact hc

/-- The records after R130 over the hires of a list: flagged where the list gives a hire of that number at its limit. -/
theorem State.foldl_checkOverdue_records (l : List Hire) (s : State) :
    (l.foldl State.checkOverdue s).hires.records = s.hires.records.map fun x => x.flagIf
      (∃ h ∈ l, h.reachesLimit (s.tariff h.plan).hireLimit s.session.clock ∧ x.number = h.number) := by
  induction l generalizing s with
  | nil => simp [Hire.flagIf]
  | cons h rest ih =>
    have tariff (k : Fin 8) : (s.checkOverdue h).tariff k = s.tariff k := by
      unfold State.tariff
      rw [State.checkOverdue_frame]
    have clock : (s.checkOverdue h).session.clock = s.session.clock := by rw [State.checkOverdue_frame]
    rw [List.foldl_cons, ih, State.checkOverdue_records, List.map_map]
    refine List.map_congr_left fun x _ => ?_
    simp only [Function.comp, Hire.flagIf_flagIf, Hire.flagIf_number, tariff, clock, List.exists_mem_cons_iff]

/-- The records after R130, each hire of the table having a number of its own (R113). -/
theorem State.checkAllOverdue_records {s : State} (order : s.hires.records.Pairwise fun a b => a.number < b.number) :
    s.checkAllOverdue.hires.records = s.hires.records.map fun h =>
      if h.state = .opened ∧ h.openedAt.abs + (s.tariff h.plan).hireLimit * 3600 ≤ s.session.clock.abs
      then { h with overdue := true } else h := by
  have unique : (s.hires.records.map (·.number)).Nodup :=
    List.pairwise_map.mpr (order.imp Nat.ne_of_lt)
  rw [State.checkAllOverdue, State.foldl_checkOverdue_records]
  refine List.map_congr_left fun x hx => ?_
  have own : (∃ h ∈ s.hires.records, h.reachesLimit (s.tariff h.plan).hireLimit s.session.clock ∧ x.number = h.number) ↔
      x.reachesLimit (s.tariff x.plan).hireLimit s.session.clock := by
    refine ⟨fun ⟨h, hh, reaches, e⟩ => ?_, fun reaches => ⟨x, hx, reaches, rfl⟩⟩
    rw [List.inj_on_of_nodup_map unique hx hh e]
    exact reaches
  simp only [own, Hire.flagIf, Hire.reachesLimit]
  cases flag : x.overdue
  · simp
  · obtain ⟨⟩ := x
    simp_all

/-! ### A tick with start-up over (R154) -/

/-- Everything a tick does once start-up is over. -/
def State.fullTick (s : State) : State := s.clockTick.boothTick.outageTick.checkAllOverdue

theorem exec_tick_done {s : State} (hp : s.powered = true) (hd : s.startup = .done) :
    exec .tick s = .next s.fullTick := by
  show execTick s = _
  simp only [execTick, hp, hd]
  rfl

theorem exec_tick_external {s : State} (hp : s.powered = true) (hd : s.startup = .external) :
    exec .tick s = .next s.clockTick := by
  show execTick s = _
  simp only [execTick, hp, hd]

theorem exec_tick_off {s : State} (h : s.powered = false ∨ s.startup = .checking) : exec .tick s = .next s := by
  show execTick s = _
  rcases h with h | h
  · simp only [execTick, h]
  · cases hp : s.powered <;> simp only [execTick, h, hp]

theorem State.checkAllOverdue_frame (s : State) :
    s.checkAllOverdue = { s with
      hires := { s.hires with records := s.checkAllOverdue.hires.records }
      retention := s.checkAllOverdue.retention
      ports := s.checkAllOverdue.ports
      faults := s.checkAllOverdue.faults } := State.foldl_checkOverdue_frame _ s

/-- The tables of a tick that the clock, the desks, the interpreters, the programs and the hires leave. -/
theorem State.fullTick_booth (s : State) : s.fullTick.booth = s.clockTick.boothTick.booth := by
  rw [State.fullTick, State.checkAllOverdue_frame, State.outageTick_frame]

theorem State.fullTick_programs (s : State) : s.fullTick.programs = s.clockTick.boothTick.outageTick.programs := by
  rw [State.fullTick, State.checkAllOverdue_frame]

theorem State.fullTick_booth_frame (s : State) :
    s.fullTick.booth =
      { s.booth with desks := s.fullTick.booth.desks, interpreters := s.fullTick.booth.interpreters } := by
  rw [State.fullTick_booth, State.boothTick_frame]
  rfl

theorem State.fullTick_desk (s : State) (d : DeskId) : s.fullTick.desk d = { s.desk d with
    turnSeconds := if s.session.state = .live ∧ (s.desk d).state.isLive = true
      then min 65535 ((s.desk d).turnSeconds + 1) else (s.desk d).turnSeconds
    turnDue := (s.desk d).turnDue || decide (s.session.state = .live ∧ (s.desk d).state.isLive = true ∧
      (s.boothConfig d.booth).turnLimit * 60 ≤ min 65535 ((s.desk d).turnSeconds + 1)) } := by
  unfold State.desk
  rw [State.fullTick_booth]
  exact s.clockTick.boothTick_desk d

theorem State.fullTick_interpreters (s : State) :
    s.fullTick.booth.interpreters = s.booth.interpreters.map fun e =>
      if s.session.state = .live ∧ s.onAirNow e.id = true then { e with onAir := min 16777215 (e.onAir + 1) } else e := by
  rw [State.fullTick_booth]
  exact s.clockTick.boothTick_interpreters

theorem State.fullTick_program (s : State) (p : Prog) : s.fullTick.program p = { s.program p with outage :=
    if s.session.state = .live ∧ (s.program p).radiation = .shed then (s.program p).outage + 1
    else (s.program p).outage } := by
  have before : s.clockTick.boothTick.program p = s.program p := by
    unfold State.program
    rw [State.boothTick_frame]
    rfl
  have state : s.clockTick.boothTick.session.state = s.session.state := by
    rw [State.boothTick_frame]
    rfl
  have after := s.clockTick.boothTick.outageTick_program p
  rw [before, state] at after
  unfold State.program at after ⊢
  rw [State.fullTick_programs]
  exact after

/-- The hire records and the clock that R130 finds at a tick. -/
theorem State.before_checkAllOverdue (s : State) :
    s.clockTick.boothTick.outageTick.hires = s.hires ∧
      s.clockTick.boothTick.outageTick.settlement = s.settlement ∧
      s.clockTick.boothTick.outageTick.session.clock = s.session.clock.tick := by
  rw [State.outageTick_frame, State.boothTick_frame]
  exact ⟨rfl, rfl, rfl⟩

theorem State.fullTick_hires (s : State) :
    s.fullTick.hires = { s.hires with records := s.fullTick.hires.records } := by
  obtain ⟨hires, -, -⟩ := s.before_checkAllOverdue
  rw [State.fullTick, State.checkAllOverdue_frame]
  rw [hires]

theorem State.fullTick_records {s : State} (order : s.hires.records.Pairwise fun a b => a.number < b.number) :
    s.fullTick.hires.records = s.hires.records.map fun h =>
      if h.state = .opened ∧ h.openedAt.abs + (s.tariff h.plan).hireLimit * 3600 ≤ s.session.clock.tick.abs
      then { h with overdue := true } else h := by
  obtain ⟨hires, settlement, clock⟩ := s.before_checkAllOverdue
  rw [State.fullTick, State.checkAllOverdue_records (by rw [hires]; exact order), hires, clock]
  unfold State.tariff
  rw [settlement]

theorem State.fullTick_keepsWords (s : State) : s.KeepsWords s.fullTick :=
  ((State.KeepsWords.of_rewrite (g := 8) rfl : s.KeepsWords s.clockTick).trans (State.boothTick_keepsWords _)).trans
    ((State.outageTick_keepsWords _).trans (State.foldl_checkOverdue_keepsWords _ _))

/-- What a tick reports: the TURN_DUE notices, then the HIRE_OVERDUE notices (R20, R130; log entry 17). -/
theorem State.fullTick_reportsAs (s : State) :
    (s.hires.records.foldl (s.overdueNotice s.session.clock.tick)
      ((List.finRange 72).foldl s.turnNotice s.clockTick)).ReportsAs s.fullTick := by
  obtain ⟨hires, settlement, clock⟩ := s.before_checkAllOverdue
  have turns : ((List.finRange 72).foldl s.turnNotice s.clockTick).ReportsAs s.clockTick.boothTick.outageTick := by
    refine s.clockTick.boothTick_reportsAs.trans ?_
    unfold State.ReportsAs
    rw [State.outageTick_frame]
    rfl
  have overdue := State.ReportsAs.foldl_checkOverdue s.hires.records turns settlement clock
  rwa [← hires] at overdue ⊢

theorem State.turnNotice_withTables (s : State) (b : BoothSection) (p : Table Program 32) (h : HireTable) (r : Retention)
    (v : State) (i : Fin 72) : s.turnNotice (v.withTables b p h r) i = (s.turnNotice v i).withTables b p h r := by
  unfold State.turnNotice
  split
  · split
    · exact State.notify_withTables ..
    · rfl
  · rfl

theorem State.overdueNotice_withTables (s : State) (clock : HallTime) (b : BoothSection) (p : Table Program 32)
    (h : HireTable) (r : Retention) (v : State) (x : Hire) :
    s.overdueNotice clock (v.withTables b p h r) x = (s.overdueNotice clock v x).withTables b p h r := by
  unfold State.overdueNotice
  split
  · exact State.notify_withTables ..
  · rfl

/-- A tick is its notices, in order, on the state with the tables that it leaves. -/
theorem State.fullTick_eq (s : State) :
    s.fullTick = s.hires.records.foldl (s.overdueNotice s.session.clock.tick) ((List.finRange 72).foldl s.turnNotice
      (s.clockTick.withTables s.fullTick.booth s.fullTick.programs s.fullTick.hires s.fullTick.retention)) := by
  rw [State.foldl_withTables _ _ _ _ (State.turnNotice_withTables s _ _ _ _),
    State.foldl_withTables _ _ _ _ (State.overdueNotice_withTables s _ _ _ _ _)]
  exact s.fullTick_reportsAs

end Sys2Proof.Machine

namespace Sys2Proof.Proofs
open Sys2Proof Sys2Proof.Machine

/-- Settles O59: the tables of a tick one by one, its notices by `State.fullTick_eq`, and the watch by
`State.tickWatchDue_iff`. -/
theorem ticksCountAndTheirLossIsRaised : Obligations.TicksCountAndTheirLossIsRaised := by
  refine ⟨fun s h => exec_tick_off h, fun s u clock hp hc hu => ⟨fun hd => ?_, fun hd order => ?_⟩, fun s hp =>
    ⟨fun hd hl hn => ?_, fun h => ?_⟩⟩
  · rw [exec_tick_external hp hd, hu, hc]
    rfl
  · refine ⟨s.fullTick, exec_tick_done hp hd, s.fullTick_program, s.fullTick_desk, s.fullTick_interpreters, ?_,
      s.fullTick_keepsWords.marker, s.fullTick_keepsWords.words, ?_⟩
    · rw [hc]
      exact State.fullTick_records order
    · rw [← State.fullTick_booth_frame, ← State.fullTick_hires, hu, hc]
      exact s.fullTick_eq
  · have due : s.tickWatchDue = true := s.tickWatchDue_iff.mpr ⟨hp, hd, hl, hn⟩
    show execTickWatchExpiry s = _
    unfold execTickWatchExpiry
    rw [if_pos due]
    rfl
  · have early : ¬ s.tickWatchDue = true := fun k => by
      obtain ⟨-, hd, hl, hn⟩ := s.tickWatchDue_iff.mp k
      grind
    show execTickWatchExpiry s = _
    unfold execTickWatchExpiry
    rw [if_neg early]

end Sys2Proof.Proofs
end

section
/-! SUPPORT. Scope, retained values: what every operation, every command's body and every event keeps of the queue of
commands, the ranges of configuration and clock, Floor's fixed values and the check words (R2, R57, R69, R100, R114, R134,
R154, R160, R185). `State.Keeps s t` says that they pass from `s` to `t`; there is one rule per operation, and
`exec_keeps` says it of an event. -/

namespace Sys2Proof.Machine

/-! ### Values that pass from one state to another -/

/-- The queue of commands stands, and the ranges, Floor's fixed values and the words in agreement pass from `s` to `t`. -/
structure State.Keeps (s t : State) : Prop where
  pending : t.pending = s.pending
  values : s.valuesInRange → t.valuesInRange
  floor : s.floorFixed → t.floorFixed
  words : s.wordsAgree → t.wordsAgree

theorem State.Keeps.refl (s : State) : s.Keeps s := ⟨rfl, id, id, id⟩

theorem State.Keeps.trans {s t u : State} (h : s.Keeps t) (k : t.Keeps u) : s.Keeps u :=
  ⟨k.pending.trans h.pending, k.values ∘ h.values, k.floor ∘ h.floor, k.words ∘ h.words⟩

/-- Floor's law reads program 0's configuration and the hold alone (R57). -/
theorem State.floorFixed_congr {s t : State} (hc : (t.program 0).config = (s.program 0).config)
    (hh : t.planner.hold = s.planner.hold) (h : s.floorFixed) : t.floorFixed := by
  unfold State.floorFixed
  rw [hc, hh]
  exact h

theorem Table.forall_rows {α : Type} {n : Nat} {P : α → Prop} (t : Table α n) :
    (∀ a ∈ t.rows, P a) ↔ ∀ i, P (t.get i) := by
  refine ⟨fun h i => h _ (List.get_mem ..), fun h a ha => ?_⟩
  obtain ⟨i, hi, rfl⟩ := List.mem_iff_getElem.mp ha
  exact h ⟨i, t.size ▸ hi⟩

theorem Table.forall_rows_set {α : Type} {n : Nat} {P : α → Prop} {t : Table α n} {i : Fin n} {a : α}
    (h : ∀ x ∈ t.rows, P x) (ha : P a) : ∀ x ∈ (t.set i a).rows, P x := fun x hx =>
  (List.mem_or_eq_of_mem_set hx).elim (h x) fun e => e ▸ ha

/-- A word that is recomputed agrees, and the others stay (R185). -/
theorem State.wordsAgree_rewrite {s : State} {g : Fin 10} (h : s.wordsAgree) : (s.rewrite g).wordsAgree :=
  Table.forall_rows_set h rfl

section writes
variable {s t : State} (h : s.Keeps t)
include h

/-- What touches the ports and the capture alone keeps all else. -/
theorem State.Keeps.reports {u : State} (k : t.Reports u) : s.Keeps u := by
  rw [show u = _ from k]
  exact h.trans ⟨rfl, id, id, id⟩

theorem State.Keeps.modifyDesk {d f} : s.Keeps (t.modifyDesk d f) := h.trans ⟨rfl, id, id, id⟩
theorem State.Keeps.setDeskState {d x} : s.Keeps (t.setDeskState d x) := h.modifyDesk
theorem State.Keeps.setRequest {b r} : s.Keeps (t.setRequest b r) := h.trans ⟨rfl, id, id, id⟩
theorem State.Keeps.setStocktake {k} : s.Keeps (t.setStocktake k) := h.trans ⟨rfl, id, id, id⟩
theorem State.Keeps.restartTickWatch : s.Keeps t.restartTickWatch := h.trans ⟨rfl, id, id, id⟩
theorem State.Keeps.setSession {x} : s.Keeps (t.setSession x) := h.trans ⟨rfl, id, id, id⟩
theorem State.Keeps.updateLink {f} : s.Keeps (t.updateLink f) := h.trans ⟨rfl, id, id, id⟩
theorem State.Keeps.withFaults {c} : s.Keeps (t.withFaults c) := h.trans ⟨rfl, id, id, id⟩

/-! A write to a retained group whose values have no range of their own. -/

theorem State.Keeps.setInterpreters {l} : s.Keeps (t.setInterpreters l) := h.trans ⟨rfl, id, id, State.wordsAgree_rewrite⟩
theorem State.Keeps.modifyInterpreter {n f} : s.Keeps (t.modifyInterpreter n f) := h.setInterpreters
theorem State.Keeps.setSlot {k v} : s.Keeps (t.setSlot k v) := h.trans ⟨rfl, id, id, State.wordsAgree_rewrite⟩
theorem State.Keeps.setReceivers {l} : s.Keeps (t.setReceivers l) := h.trans ⟨rfl, id, id, State.wordsAgree_rewrite⟩
theorem State.Keeps.modifyReceiver {n f} : s.Keeps (t.modifyReceiver n f) := h.setReceivers
theorem State.Keeps.setReceiverState {n x} : s.Keeps (t.setReceiverState n x) := h.setReceivers
theorem State.Keeps.setHires {l} : s.Keeps (t.setHires l) := h.trans ⟨rfl, id, id, State.wordsAgree_rewrite⟩
theorem State.Keeps.modifyHire {n f} : s.Keeps (t.modifyHire n f) := h.setHires
theorem State.Keeps.removeHire {n} : s.Keeps (t.removeHire n) := h.setHires
theorem State.Keeps.setQueue {l} : s.Keeps (t.setQueue l) := h.trans ⟨rfl, id, id, State.wordsAgree_rewrite⟩
theorem State.Keeps.setRestart {n c} : s.Keeps (t.setRestart n c) := h.trans ⟨rfl, id, id, State.wordsAgree_rewrite⟩
theorem State.Keeps.modifyCounters {f} : s.Keeps (t.modifyCounters f) := h.trans ⟨rfl, id, id, State.wordsAgree_rewrite⟩

/-! A write of a value that has a range: the value written is within it. -/

theorem State.Keeps.setBoothConfig {b c} (hc : c.inRange) : s.Keeps (t.setBoothConfig b c) :=
  h.trans ⟨rfl, fun ⟨configs, rest⟩ => ⟨Table.forall_rows_set configs hc, rest⟩, id, State.wordsAgree_rewrite⟩

theorem State.Keeps.setBudget {k v} (hv : v ≤ 32) : s.Keeps (t.setBudget k v) :=
  h.trans ⟨rfl, fun ⟨configs, budgets, rest⟩ => ⟨configs, Table.forall_rows_set budgets hv, rest⟩, id,
    State.wordsAgree_rewrite⟩

theorem State.Keeps.writeThreshold {v} (hv : 20 ≤ v ∧ v ≤ 100) : s.Keeps (t.writeThreshold v) :=
  h.trans ⟨rfl, fun ⟨configs, budgets, _, rest⟩ => ⟨configs, budgets, hv, rest⟩, id, State.wordsAgree_rewrite⟩

theorem State.Keeps.setTariff {k x} (hx : x.inRange) : s.Keeps (t.setTariff k x) :=
  h.trans ⟨rfl, fun ⟨configs, budgets, threshold, tariffs, rest⟩ =>
    ⟨configs, budgets, threshold, Table.forall_rows_set tariffs hx, rest⟩, id, State.wordsAgree_rewrite⟩

theorem State.Keeps.setClock {x v} (hx : t.session.clock.inRange → x.inRange) : s.Keeps (t.setClock x v) :=
  h.trans ⟨rfl, fun ⟨configs, budgets, threshold, tariffs, clock, rest⟩ =>
    ⟨configs, budgets, threshold, tariffs, hx clock, rest⟩, id, State.wordsAgree_rewrite⟩

theorem State.Keeps.setHireCounter {n} (hn : 1 ≤ n ∧ n ≤ 9999) : s.Keeps (t.setHireCounter n) :=
  h.trans ⟨rfl, fun ⟨configs, budgets, threshold, tariffs, clock, _, day⟩ =>
    ⟨configs, budgets, threshold, tariffs, clock, hn, day⟩, id, State.wordsAgree_rewrite⟩

theorem State.Keeps.setDay {d c x} (hd : 1 ≤ d ∧ d ≤ 9999) : s.Keeps (t.setDay d c x) :=
  h.trans ⟨rfl, fun ⟨configs, budgets, threshold, tariffs, clock, counter, _⟩ =>
    ⟨configs, budgets, threshold, tariffs, clock, counter, hd⟩, id, State.wordsAgree_rewrite⟩

/-! A write to the program records or to the hold: Floor's values stand. -/

theorem State.Keeps.modifyProgram {p f} (hf : ∀ r : Program, (f r).config = r.config) : s.Keeps (t.modifyProgram p f) := by
  refine h.trans ⟨rfl, id, State.floorFixed_congr ?_ rfl, id⟩
  show ((t.programs.modify p f).get 0).config = (t.programs.get 0).config
  rw [Table.get_modify]
  split
  · next e => rw [hf, e]
  · rfl

theorem State.Keeps.loseLive {p c} : s.Keeps (t.loseLive p c) := h.modifyProgram fun _ => rfl

theorem State.Keeps.writePrograms {f} (hf : ∀ p (r : Program), (f p r).config = r.config) :
    s.Keeps (t.writePrograms f) := by
  refine h.trans ⟨rfl, id, State.floorFixed_congr ?_ rfl, State.wordsAgree_rewrite⟩
  show ((t.programs.mapIdx f).get 0).config = _
  rw [Table.get_mapIdx, hf]
  rfl

theorem State.Keeps.setProgConfig {p c} (hc : p = 0 → c.isFloor) : s.Keeps (t.setProgConfig p c) := by
  refine h.trans ⟨rfl, id, fun ⟨program, hold⟩ => ⟨?_, hold⟩, State.wordsAgree_rewrite⟩
  show ((t.programs.modify p _).get 0).config.isFloor
  rw [Table.get_modify]
  split
  · next e => exact hc e
  · exact program

theorem State.Keeps.setHold {x} (hx : t.floorFixed → ∀ y : Shadow, y ∈ x → (y.programs.get 0).isFloor) :
    s.Keeps (t.setHold x) :=
  h.trans ⟨rfl, id, fun floor => ⟨floor.1, hx floor⟩, id⟩

end writes

/-! ### Notices, faults and passes -/

section notices
variable {s t : State} (h : s.Keeps t)
include h

theorem State.Keeps.notify {k a b c d} : s.Keeps (t.notify k a b c d) := h.reports (t.notify_reports k a b c d)
theorem State.Keeps.raiseFault {f c} : s.Keeps (t.raiseFault f c) := h.reports (t.raiseFault_reports f c)
theorem State.Keeps.raiseNow {f c} : s.Keeps (t.raiseNow f c) := h.reports (t.raiseNow_reports f c)

theorem State.Keeps.foldl {α : Type} {f : State → α → State} (hf : ∀ (u : State) (a : α), u.Keeps (f u a))
    {l : List α} : s.Keeps (l.foldl f t) := by
  induction l generalizing t with
  | nil => exact h
  | cons a rest ih => exact ih (h.trans (hf t a))

/-- Everything but the program records stands, and so do their configurations. -/
theorem State.Keeps.derivationPass : s.Keeps t.derivationPass := by
  have programs := t.derivationPass_programs
  have frame := t.derivationPass_frame
  generalize t.derivationPass = u at programs frame ⊢
  rw [frame]
  refine h.trans ⟨rfl, id, State.floorFixed_congr ?_ rfl, id⟩
  show (u.programs.get 0).config = _
  rw [programs, Table.get_mapIdx]
  rfl

theorem State.Keeps.allocationPass : s.Keeps t.allocationPass := by
  have frame := t.allocationPass_frame
  generalize t.allocationPass = u at frame ⊢
  rw [frame]
  refine h.trans ⟨rfl, id, State.floorFixed_congr ?_ rfl, id⟩
  show ((t.programs.mapIdx (passProgram (allocate t.programs t.budget))).get 0).config = _
  rw [Table.get_mapIdx]
  rfl

end notices

/-! ### Requests -/

theorem State.takeSelfReset_reports (s : State) (p : Port) : s.Reports (s.takeSelfReset p) := by
  unfold State.takeSelfReset State.resetPort
  split
  · exact (s.setPort_reports .operator _).trans rfl
  · exact .refl s

theorem State.openRequest_reports (s : State) (p : Port) : s.Reports (s.openRequest p) :=
  ((s.shiftOut_reports p _).trans (State.takeSelfReset_reports _ p)).trans (State.setPort_reports _ p _)

theorem State.placeAnswer_reports (s : State) (p : Port) (code : Byte) (r : Result) (fields : List Byte) :
    s.Reports (s.placeAnswer p code r fields) := s.setPort_reports p _

theorem State.takeRequest_reports (s : State) (p : Port) (code : Byte) (params : List Byte) :
    s.Reports (s.takeRequest p code params) := by
  have placed : s.Reports ((s.openRequest p).placeRequest p code params) :=
    (s.openRequest_reports p).trans (State.setPort_reports _ p _)
  unfold State.takeRequest
  cases s.portCheck p code params with
  | some r => exact placed.trans (State.placeAnswer_reports ..)
  | none => exact placed

theorem State.takeFrame_reports (s : State) (p : Port) (f : Frame) : s.Reports (s.takeFrame p f) := by
  cases f with
  | absent => exact s.shiftOut_reports p _
  | broken code => exact (s.openRequest_reports p).trans (State.placeAnswer_reports ..)
  | whole code params => exact s.takeRequest_reports p code params

/-- Everything a command row can do (log entry 5): the ports alone change, or its body runs on a state that differs from
`s` in its ports and capture alone, and is answered. -/
theorem State.serve_cases (s : State) (p : Port) (code : Byte) (params : List Byte) (body : State → Reply) :
    s.Reports (s.serve p code params body) ∨
      ∃ u, s.Reports u ∧ s.serve p code params body =
        (body u).state.placeAnswer p code (body u).result (body u).fields := by
  unfold State.serve
  split
  · split
    · split
      · exact .inr ⟨s, .refl s, rfl⟩
      · exact .inl (s.shiftOut_reports p _)
    · split
      · dsimp only
        split
        · exact .inl (s.takeRequest_reports p code params)
        · exact .inr ⟨_, s.takeRequest_reports p code params, rfl⟩
      · exact .inl ((s.openRequest_reports p).trans (State.placeAnswer_reports ..))
  · exact .inl (.refl s)

/-- A command keeps the values when its body does. -/
theorem State.Keeps.serve {s : State} {p : Port} {code : Byte} {params : List Byte} {body : State → Reply}
    (hb : ∀ u, State.Keeps u (body u).state) : s.Keeps (s.serve p code params body) := by
  rcases s.serve_cases p code params body with k | ⟨u, k, e⟩
  · exact (State.Keeps.refl s).reports k
  · rw [e]
    exact (((State.Keeps.refl s).reports k).trans (hb u)).reports (State.placeAnswer_reports ..)

theorem withParams_keeps {α : Type} {parsed : Option α} {f : α → State → Reply}
    (hf : ∀ a s, State.Keeps s (f a s).state) (s : State) : s.Keeps (withParams parsed f s).state := by
  cases parsed with
  | none => exact .refl s
  | some a => exact hf a s

/-! ### The Booth Section keeps the values -/

section booth
variable {s t : State} (h : s.Keeps t)
include h

theorem State.Keeps.cut {d c} : s.Keeps (t.cut d c) := by
  unfold State.cut
  split
  · exact h.setDeskState.loseLive.notify
  · exact h.setDeskState
  · exact h
  · exact h

theorem State.Keeps.dropRequest {b c} : s.Keeps (t.dropRequest b c) := by
  unfold State.dropRequest
  split
  · exact h
  · exact h.setRequest.notify

theorem State.Keeps.overrideCut {d} : s.Keeps (t.overrideCut d) := by
  unfold State.overrideCut
  dsimp only
  split
  · split
    · exact h.cut.dropRequest
    · exact h.cut
  · exact h.cut

theorem State.Keeps.cutMarked {m} : s.Keeps (t.cutMarked m) := by
  cases m with
  | none => exact h
  | some e => exact h.overrideCut

theorem State.Keeps.goLive {d o} : s.Keeps (t.goLive d o) := by
  unfold State.goLive
  split
  · refine State.Keeps.modifyInterpreter (.modifyProgram h.modifyDesk ?_)
    exact fun _ => rfl
  · exact h

theorem State.Keeps.finishHandover {b x y z} : s.Keeps (t.finishHandover b x y z) := h.setRequest.notify

theorem State.Keeps.failHandover {b x p e} : s.Keeps (t.failHandover b x p e) := h.setRequest.notify

theorem State.Keeps.completeHandover {b x r e z} : s.Keeps (t.completeHandover b x r e z) := by
  cases e with
  | none => exact h.goLive.finishHandover
  | some e => exact h.overrideCut.goLive.finishHandover

theorem State.Keeps.release {d} : s.Keeps (t.release d) := by
  have lost {id p c} : s.Keeps ((t.setDeskState d (.ready id)).loseLive p c) := h.setDeskState.loseLive
  unfold State.release
  split
  · dsimp only
    split
    · exact lost
    · split
      · exact lost.setRequest
      · split
        · split
          · exact lost.failHandover
          · exact lost.completeHandover
        · exact lost.completeHandover
  · exact h.setDeskState
  · exact h
  · exact h

theorem State.Keeps.forceHandover {b r} : s.Keeps (t.forceHandover b r) := by
  unfold State.forceHandover
  dsimp only
  split
  · split
    · exact h.failHandover
    · exact h.cut.completeHandover.derivationPass
  · exact h.setRequest

theorem State.Keeps.vacate {d} : s.Keeps (t.vacate d) := by
  unfold State.vacate
  split
  · exact h
  · exact h.setDeskState.modifyInterpreter

theorem State.Keeps.switchOutput {d o p} : s.Keeps (t.switchOutput d o p) := by
  unfold State.switchOutput
  split
  · exact h.loseLive.setDeskState.modifyProgram fun _ => rfl
  · exact h

theorem State.Keeps.boothTick : s.Keeps t.boothTick := by
  have words := t.boothTick_keepsWords.words
  have frame := t.boothTick_frame
  generalize t.boothTick = u at words frame ⊢
  exact h.trans ⟨by rw [frame], by rw [frame]; exact id, by rw [frame]; exact id, words⟩

theorem State.Keeps.leaveLive : s.Keeps t.leaveLive := by
  unfold State.leaveLive
  dsimp only
  apply State.Keeps.derivationPass
  apply State.Keeps.foldl
  · apply State.Keeps.foldl
    · exact h.trans ⟨rfl, id, id, id⟩
    · exact fun u _ => (State.Keeps.refl u).cut
  · intro u b
    split
    · exact (State.Keeps.refl u).notify
    · exact .refl u

end booth

theorem login_keeps (d : DeskId) (id : Nat) (s : State) : s.Keeps (login d id s).state := by
  unfold login
  split
  · exact .refl s
  · split
    · exact .refl s
    · split
      · exact .refl s
      · dsimp only
        split
        · exact (State.Keeps.refl s).setInterpreters.modifyDesk
        · exact (State.Keeps.refl s).modifyInterpreter.modifyDesk

theorem logout_keeps (d : DeskId) (s : State) : s.Keeps (logout d s).state := by
  unfold logout
  split
  · exact .refl s
  · dsimp only
    split
    · exact (State.Keeps.refl s).dropRequest.vacate
    · exact (State.Keeps.refl s).vacate
  · exact (State.Keeps.refl s).release.vacate.derivationPass

theorem askHandover_keeps (d : DeskId) (o : Output) (q : Fin 3) (s : State) : s.Keeps (s.askHandover d o q).state := by
  unfold State.askHandover State.pendingAnswer
  dsimp only
  exact (State.Keeps.refl s).setRequest.notify

theorem takeAir_keeps (d : DeskId) (o : Output) (p : Prog) (m : Option DeskId) (s : State) :
    s.Keeps (takeAir d o p m s).state := by
  unfold takeAir
  split
  · split
    · split
      · exact .refl s
      · exact .refl s
    · split
      · exact (State.Keeps.refl s).cut.cutMarked.goLive.derivationPass
      · exact askHandover_keeps ..
  · split
    · exact (State.Keeps.refl s).cutMarked.switchOutput.derivationPass
    · exact (State.Keeps.refl s).cutMarked.goLive.derivationPass

theorem micOn_keeps (d : DeskId) (o : Output) (s : State) : s.Keeps (micOn d o s).state := by
  unfold micOn
  split
  · exact .refl s
  · split
    · exact .refl s
    · split
      · exact .refl s
      · split
        · exact .refl s
        · split
          · exact takeAir_keeps ..
          · split
            · exact .refl s
            · exact takeAir_keeps ..

theorem micOff_keeps (d : DeskId) (s : State) : s.Keeps (micOff d s).state := by
  unfold micOff
  split
  · exact (State.Keeps.refl s).release.derivationPass
  · split
    · exact (State.Keeps.refl s).dropRequest
    · exact .refl s
  · exact .refl s

theorem cancelHandover_keeps (b : Fin 24) (s : State) : s.Keeps (cancelHandover b s).state := by
  unfold cancelHandover
  split
  · exact .refl s
  · exact (State.Keeps.refl s).dropRequest

theorem selectSource_keeps (d : DeskId) (x : Source) (s : State) : s.Keeps (selectSource d x s).state := by
  unfold selectSource
  split
  · exact .refl s
  · split
    · exact .refl s
    · split
      · exact .refl s
      · exact (State.Keeps.refl s).modifyDesk.derivationPass

theorem readInterpreter_keeps (x : Nat ⊕ Nat) (s : State) : s.Keeps (readInterpreter x s).state := by
  unfold readInterpreter
  split <;> split <;> exact .refl s

/-! ### Programs and the Carrier Planner keep the values -/

theorem clamp_le {lo hi n : Nat} (h : lo ≤ hi) : clamp lo hi n ≤ hi := max_le h (min_le_left ..)

theorem le_clamp {lo hi n : Nat} : lo ≤ clamp lo hi n := le_max_left ..

/-- What SET BOOTH stores is within the ranges, whatever it carries (R3). -/
theorem BoothArgs.stored_inRange (a : BoothArgs) : a.stored.inRange :=
  ⟨le_clamp, clamp_le (by decide), le_clamp, clamp_le (by decide)⟩

/-- What SET PROGRAM stores for program 0 has Floor's fixed values (R57, R59). -/
theorem storedConfig_isFloor {p : Prog} (c : ProgConfig) (h : p = 0) : (storedConfig p c).isFloor := by
  rw [storedConfig, if_pos h]
  exact ⟨rfl, rfl, rfl, rfl⟩

section planner
variable {s t : State} (h : s.Keeps t)
include h

/-- A write of the booths' configurations that keeps each within its ranges (R2). -/
theorem State.Keeps.writeConfigs {x : Table BoothConfig 24} (hx : ∀ b, (t.boothConfig b).inRange → (x.get b).inRange) :
    s.Keeps (({ t with booth := { t.booth with configs := x } } : State).rewrite 5) :=
  h.trans ⟨rfl, fun ⟨configs, rest⟩ => ⟨(Table.forall_rows x).mpr fun b => hx b ((Table.forall_rows _).mp configs b), rest⟩,
    id, State.wordsAgree_rewrite⟩

theorem State.Keeps.revertBooth {b} : s.Keeps (t.revertBooth b) := h.trans ⟨rfl, id, id, id⟩
theorem State.Keeps.revertAll : s.Keeps t.revertAll := h.trans ⟨rfl, id, id, id⟩
theorem State.Keeps.dropSelections : s.Keeps t.dropSelections := h.trans ⟨rfl, id, id, id⟩

theorem State.Keeps.writeBooth {b} {a : BoothArgs} : s.Keeps (t.writeBooth b a.stored) := by
  unfold State.writeBooth
  dsimp only
  split
  · next x hold =>
    refine State.Keeps.setHold (h.setBoothConfig ?_) fun floor y hy => ?_
    · exact a.stored_inRange
    · cases hy
      exact floor.2 x hold
  · split
    · exact h.setBoothConfig a.stored_inRange
    · exact (h.setBoothConfig a.stored_inRange).revertBooth.derivationPass

theorem State.Keeps.clearOutputs {p} : s.Keeps (t.clearOutputs p) :=
  h.writeConfigs fun b hb => by rw [Table.get_map]; exact hb

theorem State.Keeps.unconfigure {p} : s.Keeps (t.unconfigure p) := by
  unfold State.unconfigure
  dsimp only
  refine State.Keeps.derivationPass (.dropSelections (.clearOutputs (h.modifyProgram ?_)))
  exact fun _ => rfl

theorem State.Keeps.commitProgram {p c} (hc : p = 0 → c.isFloor) : s.Keeps (t.commitProgram p c) := by
  have written : s.Keeps (t.setProgConfig p c) := h.setProgConfig hc
  unfold State.commitProgram
  dsimp only
  split
  · split
    · exact written.unconfigure.allocationPass
    · exact written.allocationPass
  · split
    · exact written.unconfigure
    · exact written

theorem State.Keeps.writeProgram {p c} (hc : p = 0 → c.isFloor) : s.Keeps (t.writeProgram p c) := by
  unfold State.writeProgram
  split
  · next x hold =>
    refine h.setHold fun floor y hy => ?_
    cases hy
    show ((x.programs.set p c).get 0).isFloor
    by_cases e : p = 0
    · rw [e, Table.get_set_same]
      exact hc e
    · rw [Table.get_set_other _ _ _ _ e]
      exact floor.2 x hold
  · exact h.commitProgram hc

/-- PLAN RELEASE gives program 0 the shadow's values, which are Floor's (R57, R66). -/
theorem State.Keeps.applyShadow {x} (hold : t.planner.hold = some x) : s.Keeps (t.applyShadow x) := by
  unfold State.applyShadow
  dsimp only
  refine State.Keeps.writeConfigs (t := t.writePrograms _) ?_ fun b hb => by rw [Table.get_mapIdx]; exact hb
  refine h.trans ⟨rfl, id, fun ⟨_, shadow⟩ => ⟨?_, shadow⟩, State.wordsAgree_rewrite⟩
  have written := shadow x hold
  unfold State.program State.writePrograms
  dsimp only [State.rewrite_programs]
  rw [Table.get_mapIdx]
  exact written

theorem State.Keeps.endHold : s.Keeps (t.setHold none) := h.setHold fun _ _ hy => absurd hy (Option.not_mem_none _)

theorem State.Keeps.releasePlan {x} (hold : t.planner.hold = some x) : s.Keeps (t.releasePlan x) := by
  unfold State.releasePlan
  exact (h.applyShadow hold).revertAll.dropSelections.derivationPass.allocationPass.endHold

theorem State.Keeps.takeBank {b} : s.Keeps (t.takeBank b) := by
  unfold State.takeBank
  dsimp only
  refine State.Keeps.notify ?_
  exact h.trans ⟨rfl, id, id, id⟩

end planner

theorem setBooth_keeps (a : BoothArgs) (s : State) : s.Keeps (setBooth a s).state := by
  unfold setBooth
  split
  · exact .refl s
  · split
    · exact .refl s
    · exact (State.Keeps.refl s).writeBooth

theorem setProgram_keeps (p : Prog) (c : ProgConfig) (s : State) : s.Keeps (setProgram p c s).state := by
  unfold setProgram
  dsimp only
  split
  · exact .refl s
  · split
    · exact .refl s
    · exact (State.Keeps.refl s).writeProgram (storedConfig_isFloor c)

theorem planHold_keeps (x : Unit) (s : State) : s.Keeps (planHold x s).state := by
  unfold planHold
  split
  · exact .refl s
  · refine (State.Keeps.refl s).setHold fun floor y hy => ?_
    cases hy
    unfold State.makeShadow
    rw [Table.get_map]
    exact floor.1

theorem planRelease_keeps (x : Unit) (s : State) : s.Keeps (planRelease x s).state := by
  unfold planRelease
  split
  · exact .refl s
  · next hold =>
    split
    · exact .refl s
    · exact (State.Keeps.refl s).releasePlan hold

theorem planAbandon_keeps (x : Unit) (s : State) : s.Keeps (planAbandon x s).state := by
  unfold planAbandon
  split
  · exact (State.Keeps.refl s).endHold
  · exact .refl s

theorem readPlan_keeps (x : PlanSelector) (s : State) : s.Keeps (readPlan x s).state := by
  unfold readPlan
  split <;> exact .refl s

theorem setBankBudget_keeps (k : Fin 8) (v : Nat) (s : State) : s.Keeps (setBankBudget k v s).state := by
  have written : s.Keeps (s.setBudget k (min 32 v)) := (State.Keeps.refl s).setBudget (min_le_left ..)
  unfold setBankBudget
  dsimp only
  split
  · exact written.allocationPass
  · exact written

/-! ### The Receiver Registry and the racks keep the values -/

section registry
variable {s t : State} (h : s.Keeps t)
include h

theorem State.Keeps.freeSlot {n} : s.Keeps (t.freeSlot n) := by
  unfold State.freeSlot
  split
  · exact h.setSlot.modifyReceiver
  · exact h

theorem State.Keeps.clearMark {n} : s.Keeps (t.clearMark n) := by
  unfold State.clearMark
  split
  · split
    · exact h.modifyReceiver.setStocktake
    · exact h
  · exact h

theorem State.Keeps.issueReceiver {n k} : s.Keeps (t.issueReceiver n k) := h.clearMark.modifyReceiver

theorem State.Keeps.unrackReceiver {n} : s.Keeps (t.unrackReceiver n) := h.freeSlot.modifyReceiver

theorem State.Keeps.loseReceiver {n k} : s.Keeps (t.loseReceiver n k) := h.freeSlot.modifyReceiver

theorem State.Keeps.pullFromRack {m k c} : s.Keeps (t.pullFromRack m k c) :=
  h.clearMark.freeSlot.setReceiverState.notify

theorem State.Keeps.displace {n k} : s.Keeps (t.displace n k).1 := by
  unfold State.displace
  split
  · exact h
  · split
    · exact h
    · split
      · exact h.setSlot
      · dsimp only
        split
        · exact h.pullFromRack
        · exact h.freeSlot

theorem State.Keeps.seatAndPlace {n k b x} : s.Keeps (t.seatAndPlace n k b x) :=
  h.freeSlot.setSlot.modifyReceiver.modifyReceiver.clearMark

theorem State.Keeps.pull {m k} : s.Keeps (t.pull m k) := by
  unfold State.pull
  split
  · exact h.setSlot
  · split
    · exact h.pullFromRack
    · exact h.clearMark.freeSlot

end registry

theorem readReceiver_keeps (x : ReceiverSelector) (s : State) : s.Keeps (readReceiver x s).state := by
  unfold readReceiver
  split <;> exact .refl s

theorem enrolReceiver_keeps (n : Nat) (s : State) : s.Keeps (enrolReceiver n s).state := by
  unfold enrolReceiver
  dsimp only
  split
  · exact .refl s
  · split
    · exact .refl s
    · exact (State.Keeps.refl s).setReceivers

theorem withdrawReceiver_keeps (n : Nat) (s : State) : s.Keeps (withdrawReceiver n s).state := by
  have marked : s.Keeps ((s.clearMark n).setReceiverState n .withdrawn) := (State.Keeps.refl s).clearMark.setReceiverState
  unfold withdrawReceiver
  split
  · exact .refl s
  · split
    · exact .refl s
    all_goals rw [withdrawAnswer_state]
    · exact .refl s
    · exact marked
    · exact marked
    · exact marked
    · exact (State.Keeps.refl s).modifyReceiver

theorem reinstateReceiver_keeps (n : Nat) (s : State) : s.Keeps (reinstateReceiver n s).state := by
  unfold reinstateReceiver
  split
  · exact .refl s
  · split
    · exact (State.Keeps.refl s).setReceiverState
    · exact .refl s

theorem deleteReceiver_keeps (n : Nat) (s : State) : s.Keeps (deleteReceiver n s).state := by
  unfold deleteReceiver
  split
  · exact .refl s
  · split
    · exact (State.Keeps.refl s).freeSlot.setReceivers
    · exact .refl s

theorem setThreshold_keeps (v : Nat) (s : State) : s.Keeps (setThreshold v s).state :=
  ((State.Keeps.refl s).writeThreshold ⟨le_clamp, clamp_le (by decide)⟩).setReceivers

theorem stocktakeStart_keeps (x : Unit) (s : State) : s.Keeps (stocktakeStart x s).state := by
  unfold stocktakeStart
  split
  · exact .refl s
  · exact (State.Keeps.refl s).setReceivers.setStocktake

theorem stocktakeEnd_keeps (x : Unit) (s : State) : s.Keeps (stocktakeEnd x s).state := by
  unfold stocktakeEnd
  split
  · dsimp only
    refine State.Keeps.setStocktake (.setReceivers ?_)
    exact ⟨rfl, id, id, id⟩
  · exact .refl s

theorem rackBattery_keeps (n b : Nat) (s : State) : s.Keeps (rackBattery n b s).state := by
  unfold rackBattery
  split
  · exact .refl s
  · exact (State.Keeps.refl s).modifyReceiver

theorem rackRemoved_keeps (k : Fin 512) (s : State) : s.Keeps (rackRemoved k s).state := by
  unfold rackRemoved
  split
  · exact .refl s
  · exact (State.Keeps.refl s).pull

/-! ### The Hire Table and the Settlement Unit keep the values -/

theorem nextHireNumber_inRange (n : Nat) : 1 ≤ nextHireNumber n ∧ nextHireNumber n ≤ 9999 := by
  unfold nextHireNumber
  split <;> omega

theorem nextDayNumber_inRange (n : Nat) : 1 ≤ nextDayNumber n ∧ nextDayNumber n ≤ 9999 := by
  unfold nextDayNumber
  split <;> omega

theorem Tariff.clamped_inRange (t : Tariff) : t.clamped.inRange :=
  ⟨clamp_le (by decide), le_clamp, clamp_le (by decide), clamp_le (by decide), clamp_le (by decide),
    clamp_le (by decide), le_clamp, clamp_le (by decide)⟩

section hires
variable {s t : State} (h : s.Keeps t)
include h

theorem State.Keeps.appendSettled {r} : s.Keeps (t.appendSettled r) := by
  unfold State.appendSettled
  dsimp only
  split
  · exact h.setQueue.modifyCounters.notify
  · exact h.setQueue.modifyCounters

theorem State.Keeps.closeIfDone {n} : s.Keeps (t.closeIfDone n).1 := by
  unfold State.closeIfDone
  split
  · exact h
  · split
    · exact h
    · unfold State.closeHire
      dsimp only
      split
      · exact h.removeHire.appendSettled
      · exact h.modifyHire.raiseFault

theorem State.Keeps.changeDemand {p f} : s.Keeps (t.changeDemand p f) := by
  cases p with
  | none => exact h
  | some p => exact h.modifyProgram (f := fun r => { r with demand := f r.demand }) fun _ => rfl

theorem State.Keeps.openHire {n a} : s.Keeps (t.openHire n a) := by
  unfold State.openHire
  dsimp only
  have opened : s.Keeps ((t.setHireCounter (nextHireNumber n)).setHires
      (insertAsc (·.number) (t.newHire n a) t.hires.records)) :=
    (h.setHireCounter (nextHireNumber_inRange n)).setHires
  exact (opened.foldl fun u _ => (State.Keeps.refl u).issueReceiver).changeDemand.modifyCounters

theorem State.Keeps.addLine {x n} : s.Keeps (t.addLine x n) := by
  unfold State.addLine
  exact h.modifyHire.issueReceiver.changeDemand.modifyCounters

theorem State.Keeps.returnReceiver {r} : s.Keeps (t.returnReceiver r).1 := by
  unfold State.returnReceiver
  split
  · dsimp only
    apply State.Keeps.closeIfDone
    unfold State.returnLine
    exact h.modifyHire.unrackReceiver.changeDemand.modifyCounters
  · exact h.unrackReceiver

theorem State.Keeps.writeOffLine {x i n} : s.Keeps (t.writeOffLine x i n) := by
  unfold State.writeOffLine
  exact h.modifyHire.loseReceiver.changeDemand.modifyCounters

theorem State.Keeps.movePreset {x p} : s.Keeps (t.movePreset x p) := by
  unfold State.movePreset
  exact h.modifyHire.changeDemand.changeDemand

theorem State.Keeps.checkOverdue {x} : s.Keeps (t.checkOverdue x) := by
  rcases t.checkOverdue_cases x with ⟨-, e⟩ | ⟨-, e⟩ <;> rw [e]
  · exact h.modifyHire.notify
  · exact h

theorem State.Keeps.implicitReturn {r} : s.Keeps (t.implicitReturn r).1 := by
  unfold State.implicitReturn
  split
  · exact h.returnReceiver
  all_goals exact h

theorem State.Keeps.takeRest {x l} : s.Keeps (t.takeRest x l) := by
  unfold State.takeRest State.drawIn
  split
  · exact h.setQueue
  · exact h.setQueue.appendSettled.removeHire.setHires.setQueue

end hires

theorem takeSettlement_keeps (x : Unit) (s : State) : s.Keeps (takeSettlement x s).state := by
  unfold takeSettlement
  split
  · exact .refl s
  · exact (State.Keeps.refl s).takeRest

theorem openHire_keeps (a : OpenArgs) (s : State) : s.Keeps (openHire a s).state := by
  unfold openHire
  split
  · exact .refl s
  · split
    · exact .refl s
    · split
      · exact .refl s
      · split
        · exact .refl s
        · split
          · exact .refl s
          · exact (State.Keeps.refl s).openHire

theorem addReceiver_keeps (k n : Nat) (s : State) : s.Keeps (addReceiver k n s).state := by
  unfold addReceiver
  split
  · exact .refl s
  · split
    · exact .refl s
    · split
      · exact .refl s
      · split
        · exact .refl s
        · split
          · exact .refl s
          · exact (State.Keeps.refl s).addLine

theorem returnReceiver_keeps (n : Nat) (s : State) : s.Keeps (returnReceiver n s).state := by
  unfold returnReceiver
  split
  · exact .refl s
  · split
    · exact (State.Keeps.refl s).returnReceiver
    · exact (State.Keeps.refl s).unrackReceiver
    all_goals exact .refl s

theorem writeOff_keeps (k n : Nat) (s : State) : s.Keeps (writeOff k n s).state := by
  unfold writeOff
  split
  · exact .refl s
  · split
    · exact .refl s
    · split
      · exact .refl s
      · exact (State.Keeps.refl s).writeOffLine.closeIfDone

theorem changePreset_keeps (k : Nat) (p : Option Prog) (s : State) : s.Keeps (changePreset k p s).state := by
  unfold changePreset
  split
  · exact .refl s
  · split
    · exact .refl s
    · split
      · exact .refl s
      · split
        · exact .refl s
        · exact (State.Keeps.refl s).movePreset

theorem readHire_keeps (x : HireSelector) (b : Bool) (s : State) : s.Keeps (readHire x b s).state := by
  unfold readHire
  split <;> exact .refl s

theorem findBadge_keeps (n : Nat) (s : State) : s.Keeps (findBadge n s).state := by
  unfold findBadge
  split <;> exact .refl s

theorem rackSeated_keeps (n : Nat) (k : Fin 512) (b : Nat) (s : State) : s.Keeps (rackSeated n k b s).state := by
  unfold rackSeated
  split
  · exact .refl s
  · exact (State.Keeps.refl s).implicitReturn.displace.seatAndPlace

/-! ### Session and Clock, the link and the start-ups keep the values -/

/-- A tick leaves a point of hall time in its range (R154). -/
theorem HallTime.tick_inRange {x : HallTime} (h : x.inRange) : x.tick.inRange := by
  obtain ⟨day, second⟩ := h
  unfold HallTime.tick
  split
  · exact ⟨day, by dsimp; omega⟩
  · split
    · exact ⟨by dsimp; omega, by dsimp; omega⟩
    · exact ⟨day, second⟩

section machine
variable {s t : State} (h : s.Keeps t)
include h

theorem State.Keeps.takeOpportunity : s.Keeps t.takeOpportunity := by
  unfold State.takeOpportunity
  split
  · split
    · exact h.updateLink
    · exact h
  · exact h

theorem State.Keeps.loadClock {x} (hx : x.inRange) : s.Keeps (t.loadClock x) := by
  have loaded : s.Keeps (t.setClock x true).restartTickWatch := (h.setClock fun _ => hx).restartTickWatch
  unfold State.loadClock
  dsimp only
  split
  · exact loaded.raiseFault
  · exact loaded

theorem State.Keeps.closeDay : s.Keeps t.closeDay := by
  unfold State.closeDay
  dsimp only
  refine State.Keeps.setDay (.setInterpreters (h.writePrograms ?_)) (nextDayNumber_inRange _)
  exact fun _ _ => rfl

theorem State.Keeps.clockTick : s.Keeps t.clockTick := (h.setClock HallTime.tick_inRange).restartTickWatch

theorem State.Keeps.outageTick : s.Keeps t.outageTick := by
  unfold State.outageTick
  split
  · refine h.writePrograms fun _ _ => ?_
    split <;> rfl
  · exact h

theorem State.Keeps.checkAllOverdue : s.Keeps t.checkAllOverdue := h.foldl fun u _ => (State.Keeps.refl u).checkOverdue

/-- The start-up's defaults are within the ranges, with every word in agreement (R185, R187). -/
theorem State.Keeps.coldStart : s.Keeps t.coldStart := by
  refine h.trans ⟨rfl, fun _ => ⟨?_, ?_, (by decide : 20 ≤ 80 ∧ 80 ≤ 100), ?_, (by decide : HallTime.inRange ⟨0, 0⟩),
    (by decide : 1 ≤ 1 ∧ 1 ≤ 9999), (by decide : 1 ≤ 1 ∧ 1 ≤ 9999)⟩, fun floor => ⟨?_, floor.2⟩, fun _ => ?_⟩
  · exact (Table.forall_rows (Table.replicate 24 BoothConfig.default)).mpr fun b => by
      rw [Table.get_replicate]
      decide
  · exact (Table.forall_rows defaultBudgets).mpr fun k => by
      rw [defaultBudgets, Table.get_ofFn]
      omega
  · exact (Table.forall_rows (Table.replicate 8 Tariff.default)).mpr fun k => by
      rw [Table.get_replicate]
      decide
  · show ((Table.ofFn Program.default).get 0).config.isFloor
    rw [Table.get_ofFn]
    exact ⟨rfl, rfl, rfl, rfl⟩
  · exact (Table.forall_rows (Table.replicate 10 true)).mpr fun g => Table.get_replicate true g

theorem State.Keeps.checkOutcome {x} : s.Keeps (t.checkOutcome x) := by
  unfold State.checkOutcome
  dsimp only
  split
  · exact h.coldStart.setClock id
  · exact h.setRestart.setClock id

theorem State.Keeps.cutStartUp {b} : s.Keeps (t.cutStartUp b) := by
  have k : s.Keeps { t with startUpsCut := t.startUpsCut + 1 } := h.trans ⟨rfl, id, id, id⟩
  rcases t.cutStartUp_cases b with e | e <;> rw [e]
  · exact k
  · exact k.checkOutcome

theorem State.Keeps.complete : s.Keeps t.complete := h.trans ⟨rfl, id, id, id⟩

theorem State.Keeps.raiseHeld : s.Keeps t.raiseHeld :=
  State.Keeps.foldl (h.withFaults (c := { t.faults with held := [] })) fun u _ => (State.Keeps.refl u).raiseNow

theorem State.Keeps.started : s.Keeps t.started := h.notify

theorem State.Keeps.startPasses : s.Keeps t.startPasses := by
  unfold State.startPasses
  refine State.Keeps.allocationPass (.derivationPass ?_)
  refine h.trans ⟨rfl, id, State.floorFixed_congr ?_ rfl, id⟩
  unfold State.program State.recomputeDemand
  dsimp only
  rw [Table.get_mapIdx]

theorem State.Keeps.raiseRetentionLost {x} : s.Keeps (t.raiseRetentionLost x) := by
  cases x with
  | none => exact h
  | some g => exact h.raiseNow (f := .retentionLost) (c := g)

/-- The reset of the volatile state leaves every retained value, and ends a hold (R186, R188). -/
theorem State.Keeps.volatileReset {x : Startup} : s.Keeps { t.volatileReset with startup := x } := by
  refine h.trans ⟨rfl, id, fun floor => ⟨?_, fun _ hy => absurd hy (Option.not_mem_none _)⟩, id⟩
  show ((t.programs.map Program.volatileReset).get 0).config.isFloor
  rw [Table.get_map]
  exact floor.1

theorem State.Keeps.externalReset : s.Keeps t.externalReset := by
  unfold State.externalReset
  split
  · exact h.cutStartUp.volatileReset (x := (t.cutStartUp true).startup)
  · exact (h.volatileReset (x := .external)).setRestart
  · exact (h.volatileReset (x := .external)).setRestart

end machine

theorem changeSession_keeps (x : Session) (s : State) : s.Keeps (s.changeSession x).state := by
  unfold State.changeSession
  dsimp only
  exact (State.Keeps.refl s).setSession.notify

theorem openSession_keeps (x : Unit) (s : State) : s.Keeps (openSession x s).state := by
  unfold openSession
  split
  · exact .refl s
  · split
    · exact .refl s
    · exact changeSession_keeps ..

theorem recess_keeps (x : Unit) (s : State) : s.Keeps (recess x s).state := by
  unfold recess
  split
  · exact .refl s
  · exact (State.Keeps.refl s).leaveLive.trans (changeSession_keeps ..)

theorem resume_keeps (x : Unit) (s : State) : s.Keeps (resume x s).state := by
  unfold resume
  split
  · exact .refl s
  · exact changeSession_keeps ..

theorem endSession_keeps (x : Unit) (s : State) : s.Keeps (endSession x s).state := by
  unfold endSession
  split
  · exact .refl s
  · exact (State.Keeps.refl s).leaveLive.trans (changeSession_keeps ..)
  · exact changeSession_keeps ..

theorem setClock_keeps (day second : Nat) (s : State) : s.Keeps (setClock day second s).state :=
  (State.Keeps.refl s).loadClock ⟨min_le_left .., min_le_left ..⟩

theorem dayClose_keeps (x : Unit) (s : State) : s.Keeps (dayClose x s).state := by
  unfold dayClose
  split
  · exact .refl s
  · exact (State.Keeps.refl s).closeDay

theorem readDaySummary_keeps (x : Unit) (s : State) : s.Keeps (readDaySummary x s).state := by
  unfold readDaySummary
  dsimp only
  split <;> exact .refl s

/-! ### The Port Interfaces' commands -/

theorem readNotice_keeps (p : Port) (x : Unit) (s : State) : s.Keeps (readNotice p x s).state := by
  unfold readNotice
  dsimp only
  split
  · exact .refl s
  · exact (State.Keeps.refl s).reports (s.setPort_reports p _)

theorem portReset_keeps (q : Port) (s : State) : s.Keeps (portReset q s).state := by
  cases q with
  | operator => exact ⟨rfl, id, id, id⟩
  | booth => exact ⟨rfl, id, id, id⟩
  | hire => exact ⟨rfl, id, id, id⟩

/-! ### Every event ends in a next state and keeps the values -/

/-- Event `c` ends in a next state, and the values pass to it. -/
def State.EndsKept (s : State) (c : Instr) : Prop := ∃ t, exec c s = .next t ∧ s.Keeps t

section events
variable {s : State}

/-- A command ends in a next state and keeps the values when its body does. -/
theorem serve_ends {α : Type} {p : Port} {code : Byte} {params : List Byte} {parsed : Option α} {f : α → State → Reply}
    (hf : ∀ a u, State.Keeps u (f a u).state) : ∃ t, (.next (s.serve p code params (withParams parsed f)) :
      Host.Outcome State Fault Refusal) = .next t ∧ s.Keeps t :=
  ⟨_, rfl, .serve (withParams_keeps hf)⟩

theorem powerOn_ends : s.EndsKept .powerOn := by
  refine ⟨_, rfl, State.Keeps.trans (t := ({ s with now := 0, powered := true, checkSince := 0 } : State))
    ⟨rfl, id, id, id⟩ ?_⟩
  exact ((State.Keeps.refl _).volatileReset (x := .checking)).trans ⟨rfl, id, id, id⟩

theorem mainPowerLoss_ends : s.EndsKept .mainPowerLoss := by
  refine ⟨_, rfl, ?_⟩
  dsimp only
  split
  · exact (State.Keeps.refl s).cutStartUp.trans ⟨rfl, id, id, id⟩
  · exact ⟨rfl, id, id, id⟩

theorem startupCheckComplete_ends : s.EndsKept .startupCheckComplete := by
  refine ⟨_, rfl, ?_⟩
  split
  · exact (State.Keeps.refl s).checkOutcome.startPasses.complete.restartTickWatch.raiseHeld.raiseRetentionLost.started
  · exact .refl s

theorem externalReset_ends : s.EndsKept .externalReset := by
  refine ⟨_, rfl, ?_⟩
  split
  · exact .refl s
  · split
    · exact (State.Keeps.refl s).externalReset.trans ⟨rfl, id, id, id⟩
    · exact ⟨rfl, id, id, id⟩

theorem resetRelease_ends : s.EndsKept .resetRelease := by
  have lines : s.Keeps (State.readLines { s with resetAsserted := false }) := ⟨rfl, id, id, id⟩
  refine ⟨_, rfl, ?_⟩
  split
  · dsimp only
    split
    · split
      · exact lines.trans ⟨rfl, id, id, id⟩
      · exact lines.startPasses.complete.raiseHeld.started
      · exact lines.startPasses.complete.raiseHeld.started
    · exact ⟨rfl, id, id, id⟩
  · exact .refl s

theorem tick_ends : s.EndsKept .tick := by
  refine ⟨_, rfl, ?_⟩
  split
  · exact .refl s
  · exact .refl s
  · exact (State.Keeps.refl s).clockTick
  · exact (State.Keeps.refl s).clockTick.boothTick.outageTick.checkAllOverdue

theorem tickWatchExpiry_ends : s.EndsKept .tickWatchExpiry := by
  refine ⟨_, rfl, ?_⟩
  split
  · have lost : s.Keeps { s with session := { s.session with tickLost := true } } := ⟨rfl, id, id, id⟩
    exact (lost.setClock id).raiseFault
  · exact .refl s

theorem healthLineChange_ends {lines : Fin 8} : s.EndsKept (.healthLineChange lines) := by
  refine ⟨_, rfl, ?_⟩
  split
  · exact .refl s
  · split <;> exact ⟨rfl, id, id, id⟩

theorem debounceExpiry_ends : s.EndsKept .debounceExpiry := by
  refine ⟨_, rfl, ?_⟩
  split
  · dsimp only
    split
    · exact (State.Keeps.refl s).takeBank
    · exact (State.Keeps.refl s).takeBank.allocationPass
  · exact .refl s

theorem handoverExpiry_ends {b : Fin 24} : s.EndsKept (.handoverExpiry b) := by
  refine ⟨_, rfl, ?_⟩
  split
  · split
    · exact (State.Keeps.refl s).forceHandover
    · exact (State.Keeps.refl s).dropRequest
  · exact .refl s

theorem stocktakeExpiry_ends : s.EndsKept .stocktakeExpiry := by
  refine ⟨_, rfl, ?_⟩
  dsimp only
  split
  · refine State.Keeps.notify (.setStocktake ?_)
    exact ⟨rfl, id, id, id⟩
  · exact .refl s

theorem readyAssert_ends : s.EndsKept .readyAssert := by
  refine ⟨_, rfl, ?_⟩
  split
  · exact (State.Keeps.refl s).updateLink.takeOpportunity
  · exact ⟨rfl, id, id, id⟩

theorem readyDeassert_ends : s.EndsKept .readyDeassert := by
  refine ⟨_, rfl, ?_⟩
  split
  · exact (State.Keeps.refl s).updateLink
  · exact ⟨rfl, id, id, id⟩

theorem sendOpportunity_ends : s.EndsKept .sendOpportunity := by
  refine ⟨_, rfl, ?_⟩
  split
  · exact (State.Keeps.refl s).takeOpportunity
  · exact .refl s

theorem transmissionComplete_ends : s.EndsKept .transmissionComplete := by
  refine ⟨_, rfl, ?_⟩
  split
  · exact (State.Keeps.refl s).updateLink.takeOpportunity
  · exact .refl s

theorem stallWatchExpiry_ends : s.EndsKept .stallWatchExpiry := by
  refine ⟨_, rfl, ?_⟩
  split
  · have episode : s.Keeps { s with link := { s.link with episode := true } } := ⟨rfl, id, id, id⟩
    exact episode.raiseFault
  · exact .refl s

theorem vbakFailure_ends : s.EndsKept .vbakFailure := by
  refine ⟨_, rfl, ?_⟩
  split
  · exact .refl s
  · exact ⟨rfl, id, id, id⟩

theorem requestTransaction_ends {p : Port} {frame : List Byte} : s.EndsKept (.requestTransaction p frame) := by
  refine ⟨_, rfl, ?_⟩
  split
  · split
    · exact (State.Keeps.refl s).reports (s.shiftOut_reports p _)
    · exact (State.Keeps.refl s).reports (s.takeFrame_reports p _)
  · exact .refl s

theorem fetchAnswer_ends {p : Port} : s.EndsKept (.fetchAnswer p) := by
  refine ⟨_, rfl, ?_⟩
  split
  · split
    · exact (State.Keeps.refl s).reports
        (((s.shiftOut_reports p _).trans (State.setPort_reports _ p _)).trans (State.takeSelfReset_reports _ p))
    · exact (State.Keeps.refl s).reports (s.shiftOut_reports p _)
  · exact .refl s

theorem statusOnly_ends {p : Port} : s.EndsKept (.statusOnly p) := by
  refine ⟨_, rfl, ?_⟩
  split
  · exact (State.Keeps.refl s).reports (s.shiftOut_reports p _)
  · exact .refl s

theorem undefinedTransactionByte_ends {p : Port} {b : Byte} : s.EndsKept (.undefinedTransactionByte p b) := by
  refine ⟨_, rfl, ?_⟩
  split
  · exact (State.Keeps.refl s).reports (s.shiftOut_reports p _)
  · exact .refl s

theorem unknownCommand_ends {p : Port} {code : Byte} {params : List Byte} :
    s.EndsKept (.unknownCommand p code params) := by
  refine ⟨_, rfl, ?_⟩
  split
  · exact .serve fun u => .refl u
  · exact .refl s

end events

/-- Every event ends in a next state and keeps the values: those of the supplies, the clock, the timers, the link and the
transactions each by their own lemma, and a command because its body does. -/
theorem exec_ends (c : Instr) (s : State) : s.EndsKept c := by
  cases c with
  | powerOn => exact powerOn_ends
  | mainPowerLoss => exact mainPowerLoss_ends
  | startupCheckComplete => exact startupCheckComplete_ends
  | externalReset => exact externalReset_ends
  | resetRelease => exact resetRelease_ends
  | tick => exact tick_ends
  | tickWatchExpiry => exact tickWatchExpiry_ends
  | healthLineChange lines => exact healthLineChange_ends
  | debounceExpiry => exact debounceExpiry_ends
  | handoverExpiry b => exact handoverExpiry_ends
  | stocktakeExpiry => exact stocktakeExpiry_ends
  | readyAssert => exact readyAssert_ends
  | readyDeassert => exact readyDeassert_ends
  | sendOpportunity => exact sendOpportunity_ends
  | transmissionComplete => exact transmissionComplete_ends
  | stallWatchExpiry => exact stallWatchExpiry_ends
  | vbakFailure => exact vbakFailure_ends
  | requestTransaction p frame => exact requestTransaction_ends
  | fetchAnswer p => exact fetchAnswer_ends
  | statusOnly p => exact statusOnly_ends
  | undefinedTransactionByte p b => exact undefinedTransactionByte_ends
  | unknownCommand p code params => exact unknownCommand_ends
  | readStatus p params => exact serve_ends (fun _ s => .refl s)
  | readNotice p params => exact serve_ends (readNotice_keeps p)
  | setNoticeMask p params => exact serve_ends (fun _ s => (State.Keeps.refl s).reports (s.setPort_reports p _))
  | readCapability p params => exact serve_ends (fun _ s => .refl s)
  | login p params => exact serve_ends (fun a => login_keeps a.1 a.2)
  | logout p params => exact serve_ends logout_keeps
  | micOn p params => exact serve_ends (fun a => micOn_keeps a.1 a.2)
  | micOff p params => exact serve_ends micOff_keeps
  | cancelHandover p params => exact serve_ends cancelHandover_keeps
  | selectSource p params => exact serve_ends (fun a => selectSource_keeps a.1 a.2)
  | readDesk p params => exact serve_ends (fun _ s => .refl s)
  | readBooth p params => exact serve_ends (fun _ s => .refl s)
  | readProgram p params => exact serve_ends (fun _ s => .refl s)
  | openHire p params => exact serve_ends openHire_keeps
  | addReceiver p params => exact serve_ends (fun a => addReceiver_keeps a.1 a.2)
  | returnReceiver p params => exact serve_ends returnReceiver_keeps
  | writeOff p params => exact serve_ends (fun a => writeOff_keeps a.1 a.2)
  | changePreset p params => exact serve_ends (fun a => changePreset_keeps a.1 a.2)
  | readHire p params => exact serve_ends (fun a => readHire_keeps a.1 a.2)
  | readReceiver p params => exact serve_ends readReceiver_keeps
  | rackSeated p params => exact serve_ends (fun a => rackSeated_keeps a.1 a.2.1 a.2.2)
  | rackBattery p params => exact serve_ends (fun a => rackBattery_keeps a.1 a.2)
  | rackRemoved p params => exact serve_ends rackRemoved_keeps
  | stocktakeStart p params => exact serve_ends stocktakeStart_keeps
  | stocktakeEnd p params => exact serve_ends stocktakeEnd_keeps
  | takeSettlement p params => exact serve_ends takeSettlement_keeps
  | findBadge p params => exact serve_ends findBadge_keeps
  | openSession p params => exact serve_ends openSession_keeps
  | recess p params => exact serve_ends recess_keeps
  | resume p params => exact serve_ends resume_keeps
  | endSession p params => exact serve_ends endSession_keeps
  | setBooth p params => exact serve_ends setBooth_keeps
  | setProgram p params => exact serve_ends (fun a => setProgram_keeps a.1 a.2)
  | planHold p params => exact serve_ends planHold_keeps
  | planRelease p params => exact serve_ends planRelease_keeps
  | planAbandon p params => exact serve_ends planAbandon_keeps
  | setBankBudget p params => exact serve_ends (fun a => setBankBudget_keeps a.1 a.2)
  | setTariff p params => exact serve_ends (fun a s => (State.Keeps.refl s).setTariff a.2.clamped_inRange)
  | setThreshold p params => exact serve_ends setThreshold_keeps
  | setClock p params => exact serve_ends (fun a => setClock_keeps a.1 a.2)
  | dayClose p params => exact serve_ends dayClose_keeps
  | enrolReceiver p params => exact serve_ends enrolReceiver_keeps
  | withdrawReceiver p params => exact serve_ends withdrawReceiver_keeps
  | reinstateReceiver p params => exact serve_ends reinstateReceiver_keeps
  | deleteReceiver p params => exact serve_ends deleteReceiver_keeps
  | readFaults p params => exact serve_ends (fun _ s => .refl s)
  | clearFaults p params => exact serve_ends (fun _ s => (State.Keeps.refl s).withFaults)
  | readInterpreter p params => exact serve_ends readInterpreter_keeps
  | readDaySummary p params => exact serve_ends readDaySummary_keeps
  | resyncDistribution p params => exact serve_ends (fun _ s => (State.Keeps.refl s).updateLink)
  | portReset p params => exact serve_ends portReset_keeps
  | readPlan p params => exact serve_ends readPlan_keeps
  | readTariff p params => exact serve_ends (fun _ s => .refl s)

/-- A step keeps the ranges, Floor's values and the words: an event by `exec_ends`, and an idle step because it changes the
timebase and the queue of commands alone (R1). -/
theorem step_keeps (s t : State) (h : step s = .next t) :
    (s.valuesInRange → t.valuesInRange) ∧ (s.floorFixed → t.floorFixed) ∧ (s.wordsAgree → t.wordsAgree) := by
  unfold step at h
  split at h
  · next c rest _ =>
    obtain ⟨u, e, k⟩ := exec_ends c { s with pending := rest }
    rw [e] at h
    cases h
    exact ⟨k.values, k.floor, k.words⟩
  · have idle : s.idle = { s with now := s.idle.now, pending := s.idle.pending } := by
      unfold State.idle State.countMs
      split
      · rfl
      · split
        · rfl
        · split <;> rfl
    cases h
    rw [idle]
    exact ⟨id, id, id⟩

end Sys2Proof.Machine

namespace Sys2Proof.Proofs
open Sys2Proof Sys2Proof.Machine

/-- Settles O6: the ranges, Floor's values and the words pass through every step (`step_keeps`), which is built from one
rule per operation. -/
theorem retainedValuesStayLawful : Obligations.RetainedValuesStayLawful :=
  ⟨fun s t hs h => (step_keeps s t h).1 hs, fun s t hs h => (step_keeps s t h).2.1 hs,
    fun s t hs h => (step_keeps s t h).2.2 hs⟩

/-- Settles O2: every event ends in a next state and leaves the queue of commands (`exec_ends`). -/
theorem everyEventIsTakenWhole : Obligations.EveryEventIsTakenWhole := fun c s =>
  let ⟨t, e, k⟩ := exec_ends c s
  ⟨t, e, k.pending⟩

end Sys2Proof.Proofs
end

section
/-! SUPPORT. Scope, who is on the air: the law of the seats does not pass through every step by itself. A request that waits in
a slot is handled without the port's check of start-up (R169; log entry 5), so that the law needs beside it that every
request that waits has passed its port's checks (`State.waitingPassed`, which O5 keeps). -/

namespace Sys2Proof.Machine

/-- The machine after POWER_ON, with a LOGIN (desk 1 of booth 1, interpreter 1) in the Booth port's slot that no check of the
port has let in, and the event that hands it to its block at the front of the queue. -/
def earlyLogin : State :=
  { State.reset with
    ports := { State.reset.ports with
      booth := { State.reset.ports.booth with request := some ⟨0x10#8, [1#8, 1#8, 0#8, 1#8], 0⟩ } }
    pending := [.login .booth [1#8, 1#8, 0#8, 1#8]] }

theorem earlyLogin_desk (d : DeskId) : earlyLogin.desk d = .reset := Table.get_replicate Desk.reset d.idx

/-- With no entry in the table and every desk VACANT, the law of the seats holds. -/
theorem earlyLogin_seatsAgree : earlyLogin.seatsAgree where
  range := nofun
  unique := List.Pairwise.nil
  present d id h := by rw [earlyLogin_desk] at h; exact nomatch h
  linked := nofun
  startup _ d := by rw [earlyLogin_desk]; rfl

/-- The step seats interpreter 1 while the start-up check still runs. -/
theorem step_earlyLogin :
    ∃ t, step earlyLogin = .next t ∧ t.startup = .checking ∧ (t.desk ⟨0, 0⟩).state = .ready 1 :=
  ⟨_, rfl, rfl, rfl⟩

/-- The request that waits in it is one that the port itself answers STARTING, so no run reaches this state (R169). -/
theorem earlyLogin_not_waitingPassed : ¬ earlyLogin.waitingPassed := fun h =>
  nomatch (h .booth _ rfl : some Result.starting = none)

end Sys2Proof.Machine

namespace Sys2Proof.Proofs
open Sys2Proof Sys2Proof.Machine

/-- Refutes O35: from `earlyLogin`, which keeps the law of the seats, a step seats an interpreter before start-up is over, and
the law has every desk VACANT until then (R186). -/
theorem not_theAirStaysConsistent : ¬ Obligations.TheAirStaysConsistent := by
  rintro ⟨-, seats⟩
  obtain ⟨t, step, checking, seated⟩ := step_earlyLogin
  have vacant := (seats earlyLogin t earlyLogin_seatsAgree step).startup (by rw [checking]; nofun) ⟨0, 0⟩
  rw [seated] at vacant
  exact nomatch vacant

end Sys2Proof.Proofs
end

section
/-! SUPPORT. Scope, the desks' moves: what a cut, a drop, a turn's start, a switch and a release leave in the desks, the
programs and the requests (R12 to R17, R28, R29, R33), that each leaves the request and answer slots apart, and that none
reads the ports. -/

namespace Sys2Proof.Machine

/-! ### What the moves read is no part of the ports -/

section placeAnswer
variable (s : State) (p : Port) (c : Byte) (r : Result) (l : List Byte)

@[simp] theorem State.placeAnswer_desk (d : DeskId) : (s.placeAnswer p c r l).desk d = s.desk d := by cases p <;> rfl
@[simp] theorem State.placeAnswer_boothConfig (b : Fin 24) : (s.placeAnswer p c r l).boothConfig b = s.boothConfig b := by
  cases p <;> rfl
@[simp] theorem State.placeAnswer_request (b : Fin 24) : (s.placeAnswer p c r l).request b = s.request b := by
  cases p <;> rfl
@[simp] theorem State.placeAnswer_program (q : Prog) : (s.placeAnswer p c r l).program q = s.program q := by
  cases p <;> rfl
@[simp] theorem State.placeAnswer_deskProgram (d : DeskId) :
    (s.placeAnswer p c r l).deskProgram d = s.deskProgram d := by cases p <;> rfl
@[simp] theorem State.placeAnswer_engaging (h q : Prog) : (s.placeAnswer p c r l).engaging h q = s.engaging h q := by
  cases p <;> rfl

end placeAnswer

@[simp] theorem State.taken_deskProgram (s : State) (p : Port) (c : Byte) (l : List Byte) (d : DeskId) :
    (s.taken p c l).deskProgram d = s.deskProgram d := by cases p <;> rfl

/-! ### The moves leave the request and answer slots apart -/

section writes
variable {f : State → State} (h : State.Apart f)
include h

theorem State.Apart.modifyDesk {d g} : State.Apart fun s => (f s).modifyDesk d g := (State.modifyDesk_apart d g).comp h
theorem State.Apart.setDeskState {d x} : State.Apart fun s => (f s).setDeskState d x := h.modifyDesk
theorem State.Apart.modifyProgram {q g} : State.Apart fun s => (f s).modifyProgram q g :=
  (State.modifyProgram_apart q g).comp h
theorem State.Apart.loseLive {q k} : State.Apart fun s => (f s).loseLive q k := h.modifyProgram
theorem State.Apart.setRequest {b x} : State.Apart fun s => (f s).setRequest b x := (State.setRequest_apart b x).comp h
theorem State.Apart.modifyInterpreter {n g} : State.Apart fun s => (f s).modifyInterpreter n g :=
  (State.modifyInterpreter_apart n g).comp h
theorem State.Apart.setInterpreters {x} : State.Apart fun s => (f s).setInterpreters x :=
  (State.setInterpreters_apart x).comp h
theorem State.Apart.setSession {x} : State.Apart fun s => (f s).setSession x := (State.setSession_apart x).comp h
theorem State.Apart.notify {k w x y z} : State.Apart fun s => (f s).notify k w x y z :=
  (State.notify_placeAnswer k w x y z).comp h
theorem State.Apart.derivationPass : State.Apart fun s => (f s).derivationPass := State.derivationPass_placeAnswer.comp h
theorem State.Apart.finishHandover {b x y n} : State.Apart fun s => (f s).finishHandover b x y n := h.setRequest.notify
theorem State.Apart.failHandover {b x q e} : State.Apart fun s => (f s).failHandover b x q e := h.setRequest.notify

end writes

theorem State.cut_apart (d : DeskId) (k : OffAirCause) : State.Apart fun s => s.cut d k := by
  intro s p c r l
  dsimp only
  unfold State.cut
  rw [State.placeAnswer_desk, State.placeAnswer_deskProgram]
  split
  · exact State.Apart.id.setDeskState.loseLive.notify s p c r l
  · exact State.Apart.id.setDeskState s p c r l
  · rfl
  · rfl

theorem State.dropRequest_apart (b : Fin 24) (k : DropCause) : State.Apart fun s => s.dropRequest b k := by
  intro s p c r l
  dsimp only
  unfold State.dropRequest
  rw [State.placeAnswer_request]
  split
  · rfl
  · exact State.Apart.id.setRequest.notify s p c r l

theorem State.goLive_apart (d : DeskId) (o : Output) : State.Apart fun s => s.goLive d o := by
  intro s p c r l
  dsimp only
  unfold State.goLive
  rw [State.placeAnswer_desk, State.placeAnswer_boothConfig]
  split
  · exact State.Apart.id.modifyDesk.modifyProgram.modifyInterpreter s p c r l
  · rfl

theorem State.switchOutput_apart (d : DeskId) (o : Output) (q : Prog) : State.Apart fun s => s.switchOutput d o q := by
  intro s p c r l
  dsimp only
  unfold State.switchOutput
  rw [State.placeAnswer_desk, State.placeAnswer_deskProgram]
  split
  · exact State.Apart.id.loseLive.setDeskState.modifyProgram s p c r l
  · rfl

section moves
variable {f : State → State} (h : State.Apart f)
include h

theorem State.Apart.cut {d k} : State.Apart fun s => (f s).cut d k := (State.cut_apart d k).comp h
theorem State.Apart.dropRequest {b k} : State.Apart fun s => (f s).dropRequest b k := (State.dropRequest_apart b k).comp h
theorem State.Apart.goLive {d o} : State.Apart fun s => (f s).goLive d o := (State.goLive_apart d o).comp h
theorem State.Apart.switchOutput {d o q} : State.Apart fun s => (f s).switchOutput d o q :=
  (State.switchOutput_apart d o q).comp h

theorem State.Apart.overrideCut {d} : State.Apart fun s => (f s).overrideCut d := by
  intro s p c r l
  have cut : ((f (s.placeAnswer p c r l)).cut d .overridden) = ((f s).cut d .overridden).placeAnswer p c r l :=
    h.cut s p c r l
  dsimp only
  unfold State.overrideCut
  dsimp only
  rw [cut, State.placeAnswer_request]
  generalize (f s).cut d .overridden = u
  split
  · split
    · exact State.dropRequest_apart _ _ u p c r l
    · rfl
  · rfl

theorem State.Apart.cutMarked {m} : State.Apart fun s => (f s).cutMarked m := by
  cases m with
  | none => exact h
  | some e => exact h.overrideCut

theorem State.Apart.completeHandover {b x q e n} : State.Apart fun s => (f s).completeHandover b x q e n := by
  cases e with
  | none => exact h.goLive.finishHandover
  | some e => exact h.overrideCut.goLive.finishHandover

end moves

theorem State.release_apart (d : DeskId) : State.Apart fun s => s.release d := by
  intro s p c r l
  have ready (id : Nat) : (s.placeAnswer p c r l).setDeskState d (.ready id) =
      (s.setDeskState d (.ready id)).placeAnswer p c r l := State.Apart.id.setDeskState s p c r l
  dsimp only
  unfold State.release
  rw [State.placeAnswer_desk, State.placeAnswer_deskProgram]
  split
  · dsimp only
    rw [ready, State.placeAnswer_request, State.placeAnswer_boothConfig]
    split
    · exact State.Apart.id.loseLive _ p c r l
    · split
      · exact State.Apart.id.loseLive.setRequest _ p c r l
      · rw [State.placeAnswer_engaging, State.placeAnswer_program]
        split
        · split
          · exact State.Apart.id.loseLive.failHandover _ p c r l
          · exact State.Apart.id.loseLive.completeHandover _ p c r l
        · exact State.Apart.id.loseLive.completeHandover _ p c r l
  · exact ready _
  · rfl
  · rfl

/-! ### What each move does (R12 to R17, R28, R29, R33) -/

section moves
variable {s : State} {d : DeskId} {id : Nat} {o : Output} {p : Prog}

/-- The program that a LIVE desk's output names is the desk's program (R6). -/
theorem State.deskProgram_eq (hd : (s.desk d).state = .live id o) (hp : (s.boothConfig d.booth).outputs.get o = some p) :
    s.deskProgram d = some p := (State.deskProgram_of_live hd).trans hp

/-- A desk that holds a program is LIVE (R6). -/
theorem State.live_of_deskProgram (h : s.deskProgram d = some p) :
    ∃ id o, (s.desk d).state = .live id o ∧ (s.boothConfig d.booth).outputs.get o = some p := by
  unfold State.deskProgram at h
  split at h
  · next id o live => exact ⟨id, o, live, h⟩
  · cases h
  · cases h

/-- A cut of a LIVE desk that holds a program (R16). -/
theorem State.cut_of_live (k : OffAirCause) (hd : (s.desk d).state = .live id o) (hp : s.deskProgram d = some p) :
    s.cut d k = ((s.setDeskState d (.ready id)).loseLive p k).notify .cut (boothNo d.booth) (posNo d.pos) p.val k.code := by
  unfold State.cut
  rw [hd, hp]

/-- A cut of a desk that is not LIVE is none. -/
theorem State.cut_of_not_live (k : OffAirCause) (hd : (s.desk d).state.isLive = false) : s.cut d k = s := by
  unfold State.cut
  split
  · next live _ => rw [live] at hd; cases hd
  · next live _ => rw [live] at hd; cases hd
  · rfl
  · rfl

/-- Everything a cut can do: nothing to a desk that is not LIVE; a LIVE desk becomes READY and gives up its program. -/
theorem State.cut_cases (s : State) (d : DeskId) (k : OffAirCause) :
    ((s.desk d).state.isLive = false ∧ s.deskProgram d = none ∧ s.cut d k = s) ∨
    (∃ id o, (s.desk d).state = .live id o ∧ s.deskProgram d = none ∧ s.cut d k = s.setDeskState d (.ready id)) ∨
    ∃ id o p, (s.desk d).state = .live id o ∧ s.deskProgram d = some p ∧ s.cut d k =
      ((s.setDeskState d (.ready id)).loseLive p k).notify .cut (boothNo d.booth) (posNo d.pos) p.val k.code := by
  cases live : (s.desk d).state with
  | live id o =>
    refine .inr ?_
    cases hp : s.deskProgram d with
    | none =>
      refine .inl ⟨id, o, rfl, rfl, ?_⟩
      unfold State.cut
      rw [live, hp]
    | some p => exact .inr ⟨id, o, p, rfl, rfl, State.cut_of_live k live hp⟩
  | vacant => exact .inl ⟨rfl, by simp [State.deskProgram, live], State.cut_of_not_live k (by rw [live]; rfl)⟩
  | ready id => exact .inl ⟨rfl, by simp [State.deskProgram, live], State.cut_of_not_live k (by rw [live]; rfl)⟩

/-- A cut touches the desks, the programs, the ports and the capture alone (R16). -/
theorem State.cut_frame (s : State) (d : DeskId) (k : OffAirCause) :
    s.cut d k = { s with
      booth := { s.booth with desks := (s.cut d k).booth.desks }
      programs := (s.cut d k).programs
      ports := (s.cut d k).ports
      faults := (s.cut d k).faults } := by
  have notify := State.notify_reports
  unfold State.Reports at notify
  rcases s.cut_cases d k with ⟨-, -, e⟩ | ⟨id, o, -, -, e⟩ | ⟨id, o, p, -, -, e⟩ <;> rw [e]
  · rfl
  · rw [notify]
    rfl

@[simp] theorem State.cut_request (s : State) (d : DeskId) (k : OffAirCause) (b : Fin 24) :
    (s.cut d k).request b = s.request b := by
  unfold State.request
  rw [State.cut_frame]

/-- A desk's start of a turn on the program that the output names (R15). -/
theorem State.goLive_of_seated (hd : (s.desk d).state.id? = some id)
    (hp : (s.boothConfig d.booth).outputs.get o = some p) :
    s.goLive d o = ((s.modifyDesk d fun r => { r with state := .live id o, turnSeconds := 0, turnDue := false }).modifyProgram
      p fun r => { r with liveDesk := some d }).modifyInterpreter id fun e => { e with turns := min 65535 (e.turns + 1) } := by
  unfold State.goLive
  rw [hd, hp]

/-- The drop of the request that a booth holds (R33). -/
theorem State.dropRequest_of_some {b : Fin 24} {r : HandoverRequest} (k : DropCause) (h : s.request b = some r) :
    s.dropRequest b k =
      (s.setRequest b none).notify .handoverLapsed (boothNo b) (posNo r.requester) (posNo r.liveDesk) k.code := by
  unfold State.dropRequest
  rw [h]

/-- An output switch of a LIVE desk that holds a program (R14). -/
theorem State.switchOutput_of_live {held target : Prog} (o' : Output) (hd : (s.desk d).state = .live id o)
    (hp : s.deskProgram d = some held) :
    s.switchOutput d o' target = ((s.loseLive held .switched).setDeskState d (.live id o')).modifyProgram target fun r =>
      { r with liveDesk := some d } := by
  unfold State.switchOutput
  rw [hd, hp]

section release
variable {held : Prog} (hd : (s.desk d).state = .live id o) (hp : s.deskProgram d = some held)
include hd hp

/-- A release in a booth with no request (R17). -/
theorem State.release_of_no_request (hr : s.request d.booth = none) :
    s.release d = (s.setDeskState d (.ready id)).loseLive held .released := by
  have request : (s.setDeskState d (.ready id)).request d.booth = none := hr
  unfold State.release
  simp only [hd, hp, request]

variable {r : HandoverRequest} {target : Prog} (hr : s.request d.booth = some r)
  (ht : (s.boothConfig d.booth).outputs.get r.output = some target)
include hr ht

/-- A release in favour of a request whose target is free, or is the program held (R28, R29). -/
theorem State.release_of_free (hf : s.engaging held target = none) :
    s.release d = ((s.setDeskState d (.ready id)).loseLive held .handedOver).completeHandover d.booth d.pos r none 0 := by
  have request : (s.setDeskState d (.ready id)).request d.booth = some r := hr
  have output : ((s.setDeskState d (.ready id)).boothConfig d.booth).outputs.get r.output = some target := ht
  have free : (s.setDeskState d (.ready id)).engaging held target = none := hf
  unfold State.release
  simp only [hd, hp, request, output, free]

variable {e : DeskId} (he : s.engaging held target = some e)
include he

/-- A release in favour of a request whose target another booth's desk holds, under OVERRIDE (R29). -/
theorem State.release_of_override (hm : (s.program target).config.engagement = .override) :
    s.release d =
      ((s.setDeskState d (.ready id)).loseLive held .handedOver).completeHandover d.booth d.pos r (some e) 0 := by
  have request : (s.setDeskState d (.ready id)).request d.booth = some r := hr
  have output : ((s.setDeskState d (.ready id)).boothConfig d.booth).outputs.get r.output = some target := ht
  have engaged : (s.setDeskState d (.ready id)).engaging held target = some e := he
  have mode : ((s.setDeskState d (.ready id)).program target).config.engagement = .override := hm
  unfold State.release
  simp only [hd, hp, request, output, engaged, mode]

/-- A release in favour of a request whose target another booth's desk holds, under INTERLOCK (R29). -/
theorem State.release_of_interlock (hm : (s.program target).config.engagement = .interlock) :
    s.release d = ((s.setDeskState d (.ready id)).loseLive held .released).failHandover d.booth r.requester target e := by
  have request : (s.setDeskState d (.ready id)).request d.booth = some r := hr
  have output : ((s.setDeskState d (.ready id)).boothConfig d.booth).outputs.get r.output = some target := ht
  have engaged : (s.setDeskState d (.ready id)).engaging held target = some e := he
  have mode : ((s.setDeskState d (.ready id)).program target).config.engagement = .interlock := hm
  unfold State.release
  simp only [hd, hp, request, output, engaged, mode]

end release

end moves

end Sys2Proof.Machine

namespace Sys2Proof.Proofs
open Sys2Proof Sys2Proof.Machine

/-- Settles O26: each move by its own equation (`State.cut_of_live`, `State.goLive_of_seated`, `State.dropRequest_of_some`,
`State.switchOutput_of_live`). -/
theorem deskMovesChangeWhatTheirRulesSay : Obligations.DeskMovesChangeWhatTheirRulesSay := by
  refine ⟨fun s d id o p cause hd hp => State.cut_of_live cause hd (State.deskProgram_eq hd hp),
    fun s d id o p hd hp => State.goLive_of_seated (by rw [hd]; rfl) hp, fun s b r cause hr => ?_,
    fun s d id o p hd hp => ⟨fun h => ?_, fun r hr hl => ?_⟩,
    fun s d id o o' p q hd hq => State.switchOutput_of_live o hd (State.deskProgram_eq hd hq)⟩
  · rw [State.dropRequest_of_some cause hr]
    cases cause <;> rfl
  · unfold State.overrideCut
    dsimp only
    rw [State.cut_request]
    split
    · next r hr => rw [if_neg (h r hr)]
    · rfl
  · unfold State.overrideCut
    dsimp only
    rw [State.cut_request, hr]
    exact if_pos hl

/-- Settles O30: one equation for each way in which the request decides (`State.release_of_no_request`,
`State.release_of_free`, `State.release_of_override`, `State.release_of_interlock`). -/
theorem aReleaseDecidesByTheRequest : Obligations.AReleaseDecidesByTheRequest := by
  intro s d id o held hd hh
  have hp := State.deskProgram_eq hd hh
  refine ⟨State.release_of_no_request hd hp, fun r target hr ht => ⟨fun free => ?_, fun e ne he => ?_⟩⟩
  · exact State.release_of_free hd hp hr ht (by unfold State.engaging; grind)
  · have engaged : s.engaging held target = some e := (if_neg ne).trans he
    exact ⟨State.release_of_override hd hp hr ht engaged, State.release_of_interlock hd hp hr ht engaged⟩

end Sys2Proof.Proofs
end

section
/-! SUPPORT. Scope, LOGIN, LOGOUT, MIC OFF and CANCEL HANDOVER (R9, R10, R18, R32): their parameters as read from bytes, and
each command as its effect under its answer. -/

namespace Sys2Proof.Machine

/-! ### A command on a port that can take it -/

section serve
variable {α : Type} {s : State} {p : Port} {code : Byte} {params : List Byte} {parsed : Option α} {a : α}
  {body : α → State → Reply} {r : Result} {fields : List Byte}

/-- A command whose parameters are read as `a`, and whose body does `f` and answers `r` with `fields`. -/
theorem exec_of_apart {f : State → State} (h : s.canTake p) (hl : params.length ≤ 250) (ha : acceptedOn code p = true)
    (hn : paramsFit code params = true) (hp : parsed = some a) (hf : State.Apart f)
    (hb : body a (s.taken p code params) = ⟨f (s.taken p code params), r, fields⟩) :
    (.next (s.serve p code params (withParams parsed body)) : Host.Outcome State Fault Refusal) =
      .next (f (s.answered p code r fields)) := by
  rw [hp]
  exact congrArg _ (State.serve_apart s p code params _ f r fields h hl ha hn hf hb)

/-- A command whose parameters are read as `a`, and whose body answers and changes nothing. -/
theorem exec_of_plain (h : s.canTake p) (hl : params.length ≤ 250) (ha : acceptedOn code p = true)
    (hn : paramsFit code params = true) (hp : parsed = some a)
    (hb : body a (s.taken p code params) = ⟨s.taken p code params, r, fields⟩) :
    (.next (s.serve p code params (withParams parsed body)) : Host.Outcome State Fault Refusal) =
      .next (s.answered p code r fields) :=
  exec_of_apart h hl ha hn hp State.Apart.id hb

/-- A command whose parameters are not read (R169). -/
theorem exec_of_malformed (h : s.canTake p) (hl : params.length ≤ 250) (ha : acceptedOn code p = true)
    (hp : parsed = none) :
    (.next (s.serve p code params (withParams parsed body)) : Host.Outcome State Fault Refusal) =
      .next (s.answered p code .malformed []) := by
  rw [hp]
  exact congrArg _ (State.serve_malformed s p code params body h hl ha)

/-- A command on a port that is not its own (R169). -/
theorem exec_of_wrongPort {q : Port} {body : State → Reply} (h : s.canTake p) (hl : params.length ≤ 250)
    (hq : commandAccess code = some (.only q)) (hp : p ≠ q) :
    (.next (s.serve p code params body) : Host.Outcome State Fault Refusal) = .next (s.answered p code .wrongPort []) :=
  congrArg _ (State.serve_wrongPort s p code params body h hl q hq hp.symm)

end serve

/-! ### Parameters (R169, R170) -/

theorem desk?_none {b q : Byte} (h : b.toNat = 0 ∨ 24 < b.toNat ∨ q.toNat = 0 ∨ 3 < q.toNat) : desk? b q = none := by
  unfold desk?
  split
  · next booth pos hb hq =>
    rcases h with h | h | h | h
    · rw [booth?, index?_none (by omega)] at hb; cases hb
    · rw [booth?, index?_none (by omega)] at hb; cases hb
    · rw [index?_none (by omega)] at hq; cases hq
    · rw [index?_none (by omega)] at hq; cases hq
  · rfl

theorem loginParams?_bytes (d : DeskId) {id : Nat} (h : 1 ≤ id) (k : id ≤ 65535) :
    loginParams? (deskBytes d ++ be 2 id) = some (d, id) := by
  rw [deskBytes_eq, be_two]
  simp [loginParams?, desk?_bytes, num_two (show id < 65536 by omega), positive?_pos h]

theorem loginParams?_none {b q h l : Byte} (k : desk? b q = none ∨ (h = 0#8 ∧ l = 0#8)) :
    loginParams? [b, q, h, l] = none := by
  unfold loginParams?
  rcases k with k | ⟨rfl, rfl⟩
  · simp [k]
  · simp [num, positive?]

theorem deskParam?_bytes (d : DeskId) : deskParam? (deskBytes d) = some d := by
  rw [deskBytes_eq]
  exact desk?_bytes d

theorem boothParam?_bytes (b : Fin 24) : oneByte? booth? (be 1 (b.val + 1)) = some b := booth?_byte b

theorem booth?_none {a : Byte} (h : a.toNat = 0 ∨ 24 < a.toNat) : booth? a = none := index?_none (by omega)

/-! ### LOGIN and LOGOUT (R9, R10) -/

section commands
variable {s : State} {d : DeskId} {f : State → State} {r : Result} {fields : List Byte}

/-- LOGIN by what its body does (R9). -/
theorem exec_login {id : Nat} (h : s.canTake .booth) (h1 : 1 ≤ id) (h2 : id ≤ 65535) (hf : State.Apart f)
    (hb : ∀ l, login d id (s.taken .booth 0x10#8 l) = ⟨f (s.taken .booth 0x10#8 l), r, fields⟩) :
    exec (.login .booth (deskBytes d ++ be 2 id)) s = .next (f (s.answered .booth 0x10#8 r fields)) :=
  exec_of_apart h (by simp [deskBytes, be]) rfl rfl (loginParams?_bytes d h1 h2) hf (hb _)

/-- LOGOUT by what its body does (R10). -/
theorem exec_logout (h : s.canTake .booth) (hf : State.Apart f)
    (hb : ∀ l, logout d (s.taken .booth 0x11#8 l) = ⟨f (s.taken .booth 0x11#8 l), r, fields⟩) :
    exec (.logout .booth (deskBytes d)) s = .next (f (s.answered .booth 0x11#8 r fields)) :=
  exec_of_apart h (by simp [deskBytes, be]) rfl rfl (deskParam?_bytes d) hf (hb _)

/-- MIC OFF by what its body does (R18). -/
theorem exec_micOff (h : s.canTake .booth) (hf : State.Apart f)
    (hb : ∀ l, micOff d (s.taken .booth 0x13#8 l) = ⟨f (s.taken .booth 0x13#8 l), r, fields⟩) :
    exec (.micOff .booth (deskBytes d)) s = .next (f (s.answered .booth 0x13#8 r fields)) :=
  exec_of_apart h (by simp [deskBytes, be]) rfl rfl (deskParam?_bytes d) hf (hb _)

/-- CANCEL HANDOVER by what its body does (R32). -/
theorem exec_cancelHandover {b : Fin 24} (h : s.canTake .booth) (hf : State.Apart f)
    (hb : ∀ l, cancelHandover b (s.taken .booth 0x14#8 l) = ⟨f (s.taken .booth 0x14#8 l), r, fields⟩) :
    exec (.cancelHandover .booth (be 1 (b.val + 1))) s = .next (f (s.answered .booth 0x14#8 r fields)) :=
  exec_of_apart h (by simp [be]) rfl rfl (boothParam?_bytes b) hf (hb _)

end commands

/-- The desk seated by LOGIN, after the interpreter table is written (R9). -/
def State.seatAt (s : State) (d : DeskId) (id : Nat) (l : List Interpreter) : State :=
  (s.setInterpreters l).modifyDesk d fun r => { r with state := .ready id, turnSeconds := 0, turnDue := false }

theorem State.seatAt_apart (d : DeskId) (id : Nat) (l : List Interpreter) : State.Apart fun s => s.seatAt d id l :=
  State.Apart.id.setInterpreters.modifyDesk

/-- What a desk hears is not changed by its LOGIN (R9). -/
theorem State.seatAt_feedBytes (s : State) (d : DeskId) (id : Nat) (l : List Interpreter) :
    (s.seatAt d id l).feedBytes d = s.feedBytes d := by
  unfold State.feedBytes State.seatAt
  rw [State.modifyDesk_desk, if_pos rfl]
  rfl

theorem State.taken_feedBytes (s : State) (p : Port) (c : Byte) (l : List Byte) (d : DeskId) :
    (s.taken p c l).feedBytes d = s.feedBytes d := by
  unfold State.feedBytes
  rw [State.taken_desk]

section login
variable {s : State} {d : DeskId} {id : Nat} (vacant : (s.desk d).state = .vacant)
include vacant

/-- LOGIN of an ID that the table does not hold, with room (R9). -/
theorem login_new (hn : s.interpreter id = none) (room : s.booth.interpreters.length < 96) :
    login d id s = ⟨s.seatAt d id (s.booth.interpreters ++ [⟨id, some d, 0, 0, 0, 0⟩]), .ok, s.feedBytes d⟩ := by
  rw [← State.seatAt_feedBytes s d id (s.booth.interpreters ++ [⟨id, some d, 0, 0, 0, 0⟩])]
  unfold login
  rw [if_neg (not_not.mpr vacant), if_neg (by rw [hn]; decide), if_neg (fun k => Nat.not_le.mpr room k.2)]
  simp only [hn, Option.isNone_none, if_true]
  rfl

/-- LOGIN of an ID that the table holds and that is at no desk (R9). -/
theorem login_known {e : Interpreter} (he : s.interpreter id = some e) (free : e.desk = none) :
    login d id s = ⟨s.seatAt d id (s.booth.interpreters.map fun e => if e.id = id then { e with desk := some d } else e),
      .ok, s.feedBytes d⟩ := by
  rw [← State.seatAt_feedBytes s d id
    (s.booth.interpreters.map fun e => if e.id = id then { e with desk := some d } else e)]
  unfold login
  rw [if_neg (not_not.mpr vacant), if_neg (by rw [he, Option.bind_some, free]; decide), if_neg (by rw [he]; simp)]
  simp only [he, Option.isNone_some, Bool.false_eq_true, if_false]
  rfl

/-- LOGIN of an ID that the table does not hold, with 96 entries (R9). -/
theorem login_full (hn : s.interpreter id = none) (full : 96 ≤ s.booth.interpreters.length) :
    login d id s = ⟨s, .tableFull, []⟩ := by
  unfold login
  rw [if_neg (not_not.mpr vacant), if_neg (by rw [hn]; decide), if_pos ⟨by rw [hn]; rfl, full⟩]
  rfl

end login

/-- LOGIN at a desk that is taken, or of an ID that is at a desk (R9). -/
theorem login_inUse {s : State} {d : DeskId} {id : Nat}
    (h : (s.desk d).state ≠ .vacant ∨ ∃ e, s.interpreter id = some e ∧ e.desk ≠ none) :
    login d id s = ⟨s, .inUse, []⟩ := by
  unfold login
  by_cases taken : (s.desk d).state ≠ .vacant
  · rw [if_pos taken]
    rfl
  · obtain ⟨e, he, seated⟩ := h.resolve_left taken
    rw [if_neg taken, if_pos (by rw [he, Option.bind_some]; exact Option.isSome_iff_ne_none.mpr seated)]
    rfl

theorem State.isRequester_iff (s : State) (d : DeskId) :
    s.isRequester d = true ↔ ∃ r, s.request d.booth = some r ∧ r.requester = d.pos := by
  unfold State.isRequester
  cases s.request d.booth <;> simp

@[simp] theorem State.taken_isRequester (s : State) (p : Port) (c : Byte) (l : List Byte) (d : DeskId) :
    (s.taken p c l).isRequester d = s.isRequester d := by
  unfold State.isRequester
  rw [State.taken_request]

/-- A desk with an interpreter is vacated: its entry loses its desk (R10). -/
theorem State.vacate_of_seated {s : State} {d : DeskId} {id : Nat} (h : (s.desk d).state.id? = some id) :
    s.vacate d = (s.setDeskState d .vacant).modifyInterpreter id fun e => { e with desk := none } := by
  unfold State.vacate
  rw [h]

@[simp] theorem State.notify_desk (s : State) (k : NoticeKind) (w x y z : Nat) (d : DeskId) :
    (s.notify k w x y z).desk d = s.desk d := (s.notify_reports k w x y z).desk d

theorem State.setRequest_desk (s : State) (b : Fin 24) (r : Option HandoverRequest) (d : DeskId) :
    (s.setRequest b r).desk d = s.desk d := rfl

@[simp] theorem State.dropRequest_desk (s : State) (b : Fin 24) (k : DropCause) (d : DeskId) :
    (s.dropRequest b k).desk d = s.desk d := by
  unfold State.dropRequest
  split
  · rfl
  · rw [State.notify_desk, State.setRequest_desk]

/-! ### No move seats or vacates a desk -/

/-- Every desk has the interpreter that it had, or none as before. -/
def State.SameSeats (s t : State) : Prop := ∀ e : DeskId, (t.desk e).state.id? = (s.desk e).state.id?

section seats
variable {s t : State} (h : s.SameSeats t)
include h

theorem State.SameSeats.modifyDesk {d : DeskId} {f : Desk → Desk} (hf : (f (t.desk d)).state.id? = (t.desk d).state.id?) :
    s.SameSeats (t.modifyDesk d f) := fun e => by
  rw [State.modifyDesk_desk]
  split
  · next same => rw [hf, same, h]
  · exact h e

theorem State.SameSeats.setReady {d : DeskId} {id : Nat} (hd : (t.desk d).state.id? = some id) :
    s.SameSeats (t.setDeskState d (.ready id)) := h.modifyDesk hd.symm

theorem State.SameSeats.notify {k w x y z} : s.SameSeats (t.notify k w x y z) := fun e => by
  rw [State.notify_desk]
  exact h e

theorem State.SameSeats.loseLive {p k} : s.SameSeats (t.loseLive p k) := h
theorem State.SameSeats.setRequest {b r} : s.SameSeats (t.setRequest b r) := h

theorem State.SameSeats.cut {d k} : s.SameSeats (t.cut d k) := by
  rcases t.cut_cases d k with ⟨-, -, e⟩ | ⟨id, o, live, -, e⟩ | ⟨id, o, p, live, -, e⟩ <;> rw [e]
  · exact h
  · exact h.setReady (by rw [live]; rfl)
  · exact (h.setReady (by rw [live]; rfl)).loseLive.notify

theorem State.SameSeats.overrideCut {d} : s.SameSeats (t.overrideCut d) := by
  unfold State.overrideCut
  dsimp only
  split
  · split
    · exact fun e => (congrArg (·.state.id?) (State.dropRequest_desk ..)).trans (h.cut e)
    · exact h.cut
  · exact h.cut

theorem State.SameSeats.goLive {d o} : s.SameSeats (t.goLive d o) := by
  unfold State.goLive
  split
  · next id p seated _ =>
    have seat : s.SameSeats (t.modifyDesk d fun r => { r with state := .live id o, turnSeconds := 0, turnDue := false }) :=
      h.modifyDesk seated.symm
    exact fun e => seat e
  · exact h

theorem State.SameSeats.completeHandover {b x r e n} : s.SameSeats (t.completeHandover b x r e n) := by
  cases e with
  | none => exact h.goLive.setRequest.notify
  | some e => exact h.overrideCut.goLive.setRequest.notify

theorem State.SameSeats.release {d} : s.SameSeats (t.release d) := by
  unfold State.release
  split
  · next id o held live _ =>
    have ready : s.SameSeats (t.setDeskState d (.ready id)) := h.setReady (by rw [live]; rfl)
    dsimp only
    split
    · exact ready
    · split
      · exact ready
      · split
        · split
          · exact ready.loseLive.setRequest.notify
          · exact ready.loseLive.completeHandover
        · exact ready.loseLive.completeHandover
  · next live _ => exact h.setReady (by rw [live]; rfl)
  · exact h
  · exact h

end seats

theorem State.SameSeats.refl (s : State) : s.SameSeats s := fun _ => rfl

/-- A LIVE desk that releases the air and is vacated (R10). -/
theorem State.release_vacate {s : State} {d : DeskId} {id : Nat} {o : Output} (live : (s.desk d).state = .live id o) :
    (s.release d).vacate d =
      ((s.release d).setDeskState d .vacant).modifyInterpreter id fun e => { e with desk := none } :=
  State.vacate_of_seated (((State.SameSeats.refl s).release d).trans (by rw [live]; rfl))

end Sys2Proof.Machine

namespace Sys2Proof.Proofs
open Sys2Proof Sys2Proof.Machine

/-- Settles O25: LOGIN by its four outcomes (`login_new`, `login_known`, `login_full`, `login_inUse`), and LOGOUT by the state of
its desk, each under its answer. -/
theorem loginAndLogoutSeatAndVacate : Obligations.LoginAndLogoutSeatAndVacate := by
  refine ⟨fun s p params h hp hl => ⟨exec_of_wrongPort h hl rfl hp, exec_of_wrongPort h hl rfl hp⟩,
    fun s b q x l h => ⟨fun out => ⟨?_, ?_⟩, ?_⟩, ⟨rfl, rfl, rfl⟩, fun s d id h h1 h2 => ⟨fun vacant => ⟨?_, ?_, ?_⟩, ?_⟩,
    fun s d h => ⟨fun vacant => ?_, fun id ready => ⟨?_, ?_⟩, fun id o live => ?_⟩⟩
  · exact exec_of_malformed h (by simp) rfl (loginParams?_none (.inl (desk?_none out)))
  · exact exec_of_malformed h (by simp) rfl (desk?_none out)
  · exact exec_of_malformed h (by simp) rfl (loginParams?_none (.inr ⟨rfl, rfl⟩))
  · intro hn room
    refine exec_login h h1 h2 (State.seatAt_apart d id (s.booth.interpreters ++ [⟨id, some d, 0, 0, 0, 0⟩])) fun l => ?_
    rw [login_new (by simpa using vacant) (by simpa using hn) (by simpa using room), State.taken_booth,
      State.taken_feedBytes]
    rfl
  · intro e he free
    refine exec_login h h1 h2 (State.seatAt_apart d id
      (s.booth.interpreters.map fun e => if e.id = id then { e with desk := some d } else e)) fun l => ?_
    rw [login_known (by simpa using vacant) (by rw [State.taken_interpreter]; exact he) free, State.taken_booth,
      State.taken_feedBytes]
    rfl
  · intro hn full
    exact exec_login h h1 h2 State.Apart.id fun l =>
      login_full (by simpa using vacant) (by simpa using hn) (by simpa using full)
  · intro taken
    exact exec_login h h1 h2 State.Apart.id fun l => login_inUse (by simpa using taken)
  · refine exec_logout h State.Apart.id fun l => ?_
    simp only [logout, State.taken_desk, vacant]
  · intro other
    refine exec_logout h State.Apart.id.setDeskState.modifyInterpreter fun l => ?_
    have not : s.isRequester d = false := by
      rw [← Bool.not_eq_true, State.isRequester_iff]
      exact fun ⟨r, hr, e⟩ => other r hr e
    simp only [logout, State.taken_desk, ready, State.taken_isRequester, not, Bool.false_eq_true, if_false]
    rw [State.vacate_of_seated (id := id) (by rw [State.taken_desk, ready]; rfl)]
  · intro r hr own
    refine exec_logout h State.Apart.id.dropRequest.setDeskState.modifyInterpreter fun l => ?_
    have requester : s.isRequester d = true := (s.isRequester_iff d).mpr ⟨r, hr, own⟩
    simp only [logout, State.taken_desk, ready, State.taken_isRequester, requester, if_true]
    rw [State.vacate_of_seated (id := id) (by rw [State.dropRequest_desk, State.taken_desk, ready]; rfl)]
  · refine exec_logout h ((State.release_apart d).setDeskState.modifyInterpreter.derivationPass) fun l => ?_
    have live' : ((s.taken .booth 0x11#8 l).desk d).state = .live id o := by rw [State.taken_desk, live]
    simp only [logout, live']
    rw [State.release_vacate live']

/-- Settles O31: MIC OFF by the state of its desk, and CANCEL HANDOVER by the booth's request, each under its answer. -/
theorem micOffAndCancelEndTurnsAndRequests : Obligations.MicOffAndCancelEndTurnsAndRequests := by
  refine ⟨fun s d h => ⟨fun id o live => ?_, fun id r ready hr own => ?_, fun other => ?_⟩, fun s a q h out => ?_,
    fun s p params h hp hl => ⟨exec_of_wrongPort h hl rfl hp, exec_of_wrongPort h hl rfl hp⟩, fun s a h out => ?_,
    fun s b h => ⟨fun r hr => ?_, fun hr => ?_⟩⟩
  · refine exec_micOff h (State.release_apart d).derivationPass fun l => ?_
    simp only [micOff, State.taken_desk, live]
  · refine exec_micOff h (State.dropRequest_apart d.booth .cancelled) fun l => ?_
    have requester : s.isRequester d = true := (s.isRequester_iff d).mpr ⟨r, hr, own⟩
    simp only [micOff, State.taken_desk, ready, State.taken_isRequester, requester]
    rfl
  · refine exec_micOff h State.Apart.id fun l => ?_
    rcases other with vacant | ⟨off, other⟩
    · simp only [micOff, State.taken_desk, vacant]
    · have not : s.isRequester d = false := by
        rw [← Bool.not_eq_true, State.isRequester_iff]
        exact fun ⟨r, hr, e⟩ => other r hr e
      unfold micOff
      rw [State.taken_desk, State.taken_isRequester, not]
      cases state : (s.desk d).state with
      | vacant => rfl
      | ready id => rfl
      | live id o => rw [state] at off; cases off
  · exact exec_of_malformed h (by simp) rfl (desk?_none out)
  · exact exec_of_malformed h (by simp) rfl (booth?_none out)
  · refine exec_cancelHandover h (State.dropRequest_apart b .cancelled) fun l => ?_
    simp only [cancelHandover, State.taken_request, hr]
    rfl
  · refine exec_cancelHandover h State.Apart.id fun l => ?_
    simp only [cancelHandover, State.taken_request, hr]
    rfl

end Sys2Proof.Proofs
end

section
/-! SUPPORT. Scope, MIC ON (R11 to R15): its parameters, its checks in order, and the handover request it creates (R25, R26). -/

namespace Sys2Proof.Machine

/-! ### The parameters of MIC ON (R11) -/

theorem micOnParams?_bytes (d : DeskId) (o : Output) : micOnParams? (deskBytes d ++ be 1 o.code) = some (d, o) := by
  rw [deskBytes_eq, be_one]
  simp [micOnParams?, desk?_bytes, output?_byte]

theorem output?_none {x : Byte} (h : x.toNat ≠ 1 ∧ x.toNat ≠ 2) : output? x = none := by
  unfold output?
  split
  · next e => exact absurd e h.1
  · next e => exact absurd e h.2
  · rfl

theorem micOnParams?_none {b q x : Byte} (h : desk? b q = none ∨ output? x = none) : micOnParams? [b, q, x] = none := by
  unfold micOnParams?
  rcases h with h | h <;> simp [h]

/-- MIC ON by what its body does (R11 to R15). -/
theorem exec_micOn {s : State} {d : DeskId} {o : Output} {f : State → State} {r : Result} {fields : List Byte}
    (h : s.canTake .booth) (hf : State.Apart f)
    (hb : ∀ l, micOn d o (s.taken .booth 0x12#8 l) = ⟨f (s.taken .booth 0x12#8 l), r, fields⟩) :
    exec (.micOn .booth (deskBytes d ++ be 1 o.code)) s = .next (f (s.answered .booth 0x12#8 r fields)) :=
  exec_of_apart h (by simp [deskBytes, be]) rfl rfl (micOnParams?_bytes d o) hf (hb _)

/-! ### The checks (R11, R12) -/

section checks
variable {s : State} {d : DeskId} {o : Output}

theorem micOn_notLive (h : s.session.state ≠ .live) : micOn d o s = ⟨s, .notLive, []⟩ := if_pos h

variable (live : s.session.state = .live)
include live

theorem micOn_noInterpreter (vacant : (s.desk d).state = .vacant) : micOn d o s = ⟨s, .noInterpreter, []⟩ := by
  unfold micOn
  rw [if_neg (not_not.mpr live), vacant]
  rfl

theorem micOn_notConfigured (seated : (s.desk d).state ≠ .vacant)
    (hp : (s.boothConfig d.booth).outputs.get o = none) : micOn d o s = ⟨s, .notConfigured, []⟩ := by
  unfold micOn
  rw [if_neg (not_not.mpr live)]
  split
  · next vacant => exact absurd vacant seated
  · rw [hp]
    rfl

variable {p : Prog} (hp : (s.boothConfig d.booth).outputs.get o = some p)
include hp

theorem micOn_already {id : Nat} (on : (s.desk d).state = .live id o) : micOn d o s = ⟨s, .ok, []⟩ := by
  unfold micOn
  rw [if_neg (not_not.mpr live), on]
  simp only [hp, DeskState.id?, Option.getD_some, if_true]

variable (seated : (s.desk d).state ≠ .vacant) (off : ∀ id, (s.desk d).state ≠ .live id o)
include seated off

theorem micOn_engaged {e : DeskId} (he : (s.program p).liveDesk = some e) (other : e.booth ≠ d.booth)
    (hm : (s.program p).config.engagement = .interlock) : micOn d o s = ⟨s, .engaged, []⟩ := by
  have engaging : s.otherBoothDesk d p = some e := by
    unfold State.otherBoothDesk
    rw [he]
    exact if_neg other
  unfold micOn
  rw [if_neg (not_not.mpr live)]
  split
  · next vacant => exact absurd vacant seated
  · simp only [hp, if_neg (off _), engaging, hm]
    rfl

/-- The first five checks passed, with the cut that the engagement check marked (R12). -/
theorem micOn_passed (hm : ∀ e, s.otherBoothDesk d p = some e → (s.program p).config.engagement = .override) :
    micOn d o s = takeAir d o p (s.otherBoothDesk d p) s := by
  unfold micOn
  rw [if_neg (not_not.mpr live)]
  split
  · next vacant => exact absurd vacant seated
  · simp only [hp, if_neg (off _)]
    cases marked : s.otherBoothDesk d p with
    | none => rfl
    | some e => rw [hm e marked]

end checks

/-- What the engagement check finds: the target's live desk, when it is in another booth (R12). -/
theorem State.otherBoothDesk_eq_some {s : State} {d e : DeskId} {p : Prog} :
    s.otherBoothDesk d p = some e ↔ (s.program p).liveDesk = some e ∧ e.booth ≠ d.booth := by
  unfold State.otherBoothDesk
  cases (s.program p).liveDesk with
  | none => simp
  | some x =>
    by_cases same : x.booth = d.booth
    · simp only [if_pos same, Option.some.injEq]
      exact ⟨nofun, fun ⟨e, k⟩ => absurd (e ▸ same) k⟩
    · simp only [if_neg same, Option.some.injEq]
      exact ⟨fun e => ⟨e, e ▸ same⟩, And.left⟩

/-- A booth with no other LIVE desk (R13). -/
theorem State.otherLivePos_eq_none {s : State} {d : DeskId}
    (h : ∀ k, k ≠ d.pos → (s.desk ⟨d.booth, k⟩).state.isLive = false) : s.otherLivePos d = none := by
  unfold State.otherLivePos
  rw [List.find?_eq_none]
  intro k _ found
  simp only [Bool.and_eq_true, decide_eq_true_eq] at found
  exact absurd found.2 (by rw [h k found.1]; decide)

/-- A booth with exactly one other LIVE desk (R13). -/
theorem State.otherLivePos_eq_some {s : State} {d : DeskId} {q : Fin 3} (hq : q ≠ d.pos)
    (live : (s.desk ⟨d.booth, q⟩).state.isLive = true)
    (only : ∀ k, k ≠ q → (s.desk ⟨d.booth, k⟩).state.isLive = false) : s.otherLivePos d = some q := by
  unfold State.otherLivePos
  cases find : (List.finRange 3).find? fun k => k ≠ d.pos && (s.desk ⟨d.booth, k⟩).state.isLive with
  | none => exact absurd (List.find?_eq_none.mp find q (List.mem_finRange q)) (by simp [hq, live])
  | some k =>
    have found := List.find?_some find
    simp only [Bool.and_eq_true] at found
    by_cases same : k = q
    · rw [same]
    · exact absurd found.2 (by rw [only k same]; decide)

/-- The other LIVE desk that the booth of a request has is found (R13). -/
theorem State.otherLivePos_isSome {s : State} {d : DeskId} {q : Fin 3} (hq : q ≠ d.pos)
    (live : (s.desk ⟨d.booth, q⟩).state.isLive = true) : ∃ k, s.otherLivePos d = some k :=
  Option.isSome_iff_exists.mp (List.find?_isSome.mpr ⟨q, List.mem_finRange q, by simp [hq, live]⟩)

@[simp] theorem State.taken_otherBoothDesk (s : State) (p : Port) (c : Byte) (l : List Byte) (d : DeskId) (q : Prog) :
    (s.taken p c l).otherBoothDesk d q = s.otherBoothDesk d q := by
  unfold State.otherBoothDesk
  rw [State.taken_program]

@[simp] theorem State.taken_otherLivePos (s : State) (p : Port) (c : Byte) (l : List Byte) (d : DeskId) :
    (s.taken p c l).otherLivePos d = s.otherLivePos d := by
  unfold State.otherLivePos
  simp only [State.taken_desk]

theorem State.notify_now (s : State) (k : NoticeKind) (w x y z : Nat) : (s.notify k w x y z).now = s.now := by
  rw [show s.notify k w x y z = _ from s.notify_reports k w x y z]

/-- MIC ON past its first five checks, by what the rest of it does (R13 to R15). -/
theorem exec_takeAir {s : State} {d : DeskId} {o : Output} {p : Prog} {f : State → State} {r : Result} {fields : List Byte}
    (h : s.canTake .booth) (live : s.session.state = .live) (hp : (s.boothConfig d.booth).outputs.get o = some p)
    (seated : (s.desk d).state ≠ .vacant) (off : ∀ id, (s.desk d).state ≠ .live id o)
    (hm : ∀ e, s.otherBoothDesk d p = some e → (s.program p).config.engagement = .override) (hf : State.Apart f)
    (hb : ∀ l, takeAir d o p (s.otherBoothDesk d p) (s.taken .booth 0x12#8 l) = ⟨f (s.taken .booth 0x12#8 l), r, fields⟩) :
    exec (.micOn .booth (deskBytes d ++ be 1 o.code)) s = .next (f (s.answered .booth 0x12#8 r fields)) := by
  refine exec_micOn h hf fun l => ?_
  rw [micOn_passed (p := p) (by simpa using live) (by simpa using hp) (by simpa using seated) (by simpa using off)
    (by simpa using hm), State.taken_otherBoothDesk]
  exact hb l

/-- A target that is free, held in the booth, or taken under OVERRIDE passes the engagement check (R12). -/
theorem State.override_of_engagement {s : State} {d : DeskId} {p : Prog}
    (h : ∀ e, (s.program p).liveDesk = some e → e.booth = d.booth ∨ (s.program p).config.engagement = .override) :
    ∀ e, s.otherBoothDesk d p = some e → (s.program p).config.engagement = .override := fun e he => by
  obtain ⟨holds, other⟩ := State.otherBoothDesk_eq_some.mp he
  exact (h e holds).resolve_left other

end Sys2Proof.Machine

namespace Sys2Proof.Proofs
open Sys2Proof Sys2Proof.Machine

/-- Settles O29: each check by its own equation of `micOn`, and the two answers of a booth that holds a request by
`takeAir`, with nothing changed under any of them. -/
theorem micOnChecksRunInOrder : Obligations.MicOnChecksRunInOrder := by
  refine ⟨fun s p params h hp hl => exec_of_wrongPort h hl rfl hp, fun s b q x h out => ?_, fun s d o h =>
    ⟨fun k => ?_, fun live => ⟨fun k => ?_, fun seated => ⟨fun k => ?_, fun p hp => ⟨fun id on => ?_, fun off =>
      ⟨fun e he other hm => ?_, fun hm r q hr hq liveQ => ?_⟩⟩⟩⟩⟩⟩
  · refine exec_of_malformed h (by simp) rfl (micOnParams?_none ?_)
    rcases out with k | k | k | k | k
    · exact .inl (desk?_none (.inl k))
    · exact .inl (desk?_none (.inr (.inl k)))
    · exact .inl (desk?_none (.inr (.inr (.inl k))))
    · exact .inl (desk?_none (.inr (.inr (.inr k))))
    · exact .inr (output?_none k)
  · exact exec_micOn h State.Apart.id fun l => micOn_notLive (by simpa using k)
  · exact exec_micOn h State.Apart.id fun l => micOn_noInterpreter (by simpa using live) (by simpa using k)
  · exact exec_micOn h State.Apart.id fun l =>
      micOn_notConfigured (by simpa using live) (by simpa using seated) (by simpa using k)
  · exact exec_micOn h State.Apart.id fun l =>
      micOn_already (p := p) (id := id) (by simpa using live) (by simpa using hp) (by simpa using on)
  · exact exec_micOn h State.Apart.id fun l =>
      micOn_engaged (p := p) (e := e) (by simpa using live) (by simpa using hp) (by simpa using seated)
        (by simpa using off) (by simpa using he) other (by simpa using hm)
  · obtain ⟨k, hk⟩ := State.otherLivePos_isSome hq liveQ
    refine ⟨fun own => ?_, fun other => ?_⟩
    · refine exec_takeAir h live hp seated off (State.override_of_engagement hm) State.Apart.id fun l => ?_
      simp only [takeAir, State.taken_otherLivePos, hk, State.taken_request, hr, if_pos own, State.pendingAnswer,
        State.taken_now, posNo]
    · refine exec_takeAir h live hp seated off (State.override_of_engagement hm) State.Apart.id fun l => ?_
      simp only [takeAir, State.taken_otherLivePos, hk, State.taken_request, hr, if_neg other, State.refuse]

/-- Settles O28: MIC ON past its checks in a NEGOTIATED booth with no request is the creation of one (`State.askHandover`),
and what remains of the window is the whole of it. -/
theorem micOnAsksForANegotiatedHandover : Obligations.MicOnAsksForANegotiatedHandover := by
  intro s d id o p q h live ready hp hm hq liveQ only hr mode
  refine exec_takeAir h live hp (by rw [ready]; nofun) (by rw [ready]; nofun) (State.override_of_engagement hm)
    State.Apart.id.setRequest.notify fun l => ?_
  simp only [takeAir, State.taken_otherLivePos, State.otherLivePos_eq_some hq liveQ only, State.taken_request, hr,
    State.taken_boothConfig, mode, State.askHandover, State.taken_now, State.pendingAnswer, State.notify_now,
    State.setRequest_now, Nat.add_sub_cancel_left]
  rfl

end Sys2Proof.Proofs
end

section
/-! SUPPORT. Scope, MIC ON taking the air (R13 to R15): a cut of another desk leaves the requesting desk where it was, so that
the answer gives LIVE; and the moves go the same way whatever stands in the ports, so that the level of the answer is the
level that the state before the request resolves to. -/

namespace Sys2Proof.Machine

/-! ### What a cut of another desk leaves -/

section others
variable {s : State} {d e : DeskId}

theorem State.cut_desk (h : e ≠ d) (k : OffAirCause) : (s.cut e k).desk d = s.desk d := by
  have ready (id : Nat) : (s.setDeskState e (.ready id)).desk d = s.desk d := by
    unfold State.setDeskState
    rw [State.modifyDesk_desk, if_neg h]
  rcases s.cut_cases e k with ⟨-, -, c⟩ | ⟨id, o, -, -, c⟩ | ⟨id, o, p, -, -, c⟩ <;> rw [c]
  · exact ready id
  · rw [State.notify_desk]
    exact ready id

theorem State.cut_boothConfig (k : OffAirCause) (b : Fin 24) : (s.cut e k).boothConfig b = s.boothConfig b := by
  unfold State.boothConfig
  rw [State.cut_frame]

theorem State.dropRequest_boothConfig (b c : Fin 24) (k : DropCause) :
    (s.dropRequest b k).boothConfig c = s.boothConfig c := by
  unfold State.dropRequest
  split
  · rfl
  · unfold State.boothConfig
    rw [(State.notify_reports ..).booth]
    rfl

/-- An overriding cut is the cut, with the drop of a request or without it (R12, R33). -/
theorem State.overrideCut_cases (s : State) (e : DeskId) :
    s.overrideCut e = s.cut e .overridden ∨ s.overrideCut e = (s.cut e .overridden).dropRequest e.booth .overridden := by
  unfold State.overrideCut
  dsimp only
  split
  · split
    · exact .inr rfl
    · exact .inl rfl
  · exact .inl rfl

variable {m : Option DeskId}

theorem State.cutMarked_desk (h : ∀ e, m = some e → e ≠ d) : (s.cutMarked m).desk d = s.desk d := by
  cases m with
  | none => rfl
  | some e =>
    have other := h e rfl
    show (s.overrideCut e).desk d = _
    rcases s.overrideCut_cases e with c | c <;> rw [c]
    · exact State.cut_desk other _
    · exact (State.dropRequest_desk ..).trans (State.cut_desk other _)

theorem State.cutMarked_boothConfig (b : Fin 24) : (s.cutMarked m).boothConfig b = s.boothConfig b := by
  cases m with
  | none => rfl
  | some e =>
    show (s.overrideCut e).boothConfig b = _
    rcases s.overrideCut_cases e with c | c <;> rw [c]
    · exact State.cut_boothConfig ..
    · exact (State.dropRequest_boothConfig ..).trans (State.cut_boothConfig ..)

end others

/-! ### A desk on the air -/

theorem State.goLive_live {s : State} {d : DeskId} {id : Nat} {o : Output} {p : Prog} (hd : (s.desk d).state = .ready id)
    (hp : (s.boothConfig d.booth).outputs.get o = some p) : ((s.goLive d o).desk d).state = .live id o := by
  rw [State.goLive_of_seated (id := id) (by rw [hd]; rfl) hp]
  show ((s.modifyDesk d fun r => { r with state := .live id o, turnSeconds := 0, turnDue := false }).desk d).state = _
  rw [State.modifyDesk_desk, if_pos rfl]

theorem State.switchOutput_live {s : State} {d : DeskId} {id : Nat} {o o' : Output} {held p : Prog}
    (hd : (s.desk d).state = .live id o') (hp : (s.boothConfig d.booth).outputs.get o' = some held) :
    ((s.switchOutput d o p).desk d).state = .live id o := by
  rw [State.switchOutput_of_live o hd (State.deskProgram_eq hd hp)]
  show (((s.loseLive held .switched).setDeskState d (.live id o)).desk d).state = _
  unfold State.setDeskState
  rw [State.modifyDesk_desk, if_pos rfl]

/-- A derivation pass leaves a desk's state, its selected source and its turn (R45). -/
theorem State.derivationPass_desk (s : State) (d : DeskId) :
    ∃ relay feed, s.derivationPass.desk d = { s.desk d with relay := relay, feed := feed } := by
  unfold State.desk
  rw [State.derivationPass_desks, Table.get_mapIdx]
  exact ⟨_, _, rfl⟩

/-! ### The moves go the same way whatever stands in the ports -/

theorem State.Reports.symm {s t : State} (h : s.Reports t) : t.Reports s := by
  unfold State.Reports at *
  rw [h]

/-- An update that does not look at the ports nor at the fault capture. -/
def State.Blind (f : State → State) : Prop := ∀ ⦃s t : State⦄, s.Reports t → (f s).Reports (f t)

theorem State.Reports.deskProgram {s t : State} (h : s.Reports t) (d : DeskId) : t.deskProgram d = s.deskProgram d := by
  rw [show t = _ from h]
  rfl

theorem State.Reports.boothConfig {s t : State} (h : s.Reports t) (b : Fin 24) : t.boothConfig b = s.boothConfig b := by
  rw [show t = _ from h]
  rfl

theorem State.Reports.request {s t : State} (h : s.Reports t) (b : Fin 24) : t.request b = s.request b := by
  rw [show t = _ from h]
  rfl

/-- A derivation pass resolves the same levels whatever stands in the ports. -/
theorem State.Reports.level {s t : State} (h : s.Reports t) (p : Prog) :
    (t.derivationPass.program p).level = (s.derivationPass.program p).level := by
  have hearing : t.hearing = s.hearing := by
    rw [show t = _ from h]
    rfl
  unfold State.program
  rw [State.derivationPass_programs, State.derivationPass_programs, Table.get_mapIdx, Table.get_mapIdx, hearing]

section blind
variable {f : State → State} (h : State.Blind f)
include h

theorem State.Blind.modifyDesk {d g} : State.Blind fun s => (f s).modifyDesk d g := fun s t k => by
  dsimp only
  rw [show f t = _ from h k]
  rfl

theorem State.Blind.setDeskState {d x} : State.Blind fun s => (f s).setDeskState d x := h.modifyDesk

theorem State.Blind.modifyProgram {q g} : State.Blind fun s => (f s).modifyProgram q g := fun s t k => by
  dsimp only
  rw [show f t = _ from h k]
  rfl

theorem State.Blind.loseLive {q k} : State.Blind fun s => (f s).loseLive q k := h.modifyProgram

theorem State.Blind.modifyInterpreter {n g} : State.Blind fun s => (f s).modifyInterpreter n g := fun s t k => by
  dsimp only
  rw [show f t = _ from h k]
  rfl

theorem State.Blind.setRequest {b x} : State.Blind fun s => (f s).setRequest b x := fun s t k => by
  dsimp only
  rw [show f t = _ from h k]
  rfl

theorem State.Blind.notify {k w x y z} : State.Blind fun s => (f s).notify k w x y z := fun _ _ r =>
  ((State.notify_reports ..).symm.trans (h r)).trans (State.notify_reports ..)

theorem State.Blind.cut {d k} : State.Blind fun s => (f s).cut d k := fun s t r => by
  have blind : State.Blind fun u => u := fun _ _ r => r
  have r := h r
  dsimp only
  unfold State.cut
  rw [r.desk, r.deskProgram]
  split
  · exact blind.setDeskState.loseLive.notify r
  · exact blind.setDeskState r
  · exact r
  · exact r

theorem State.Blind.dropRequest {b k} : State.Blind fun s => (f s).dropRequest b k := fun s t r => by
  have blind : State.Blind fun u => u := fun _ _ r => r
  have r := h r
  dsimp only
  unfold State.dropRequest
  rw [r.request]
  split
  · exact r
  · exact blind.setRequest.notify r

theorem State.Blind.cutMarked {m} : State.Blind fun s => (f s).cutMarked m := fun s t r => by
  cases m with
  | none => exact h r
  | some e =>
    have cut : ((f s).cut e .overridden).Reports ((f t).cut e .overridden) := h.cut r
    have drop : (((f s).cut e .overridden).dropRequest e.booth .overridden).Reports
      (((f t).cut e .overridden).dropRequest e.booth .overridden) := h.cut.dropRequest r
    show ((f s).overrideCut e).Reports ((f t).overrideCut e)
    unfold State.overrideCut
    dsimp only
    rw [cut.request]
    split
    · split
      · exact drop
      · exact cut
    · exact cut

theorem State.Blind.goLive {d o} : State.Blind fun s => (f s).goLive d o := fun s t r => by
  have blind : State.Blind fun u => u := fun _ _ r => r
  have r := h r
  dsimp only
  unfold State.goLive
  rw [r.desk, r.boothConfig]
  split
  · exact blind.modifyDesk.modifyProgram.modifyInterpreter r
  · exact r

theorem State.Blind.switchOutput {d o q} : State.Blind fun s => (f s).switchOutput d o q := fun s t r => by
  have blind : State.Blind fun u => u := fun _ _ r => r
  have r := h r
  dsimp only
  unfold State.switchOutput
  rw [r.desk, r.deskProgram]
  split
  · exact blind.loseLive.setDeskState.modifyProgram r
  · exact r

end blind

theorem State.Blind.id : State.Blind fun s => s := fun _ _ r => r

theorem State.taken_of_reports (s : State) (p : Port) (c : Byte) (l : List Byte) : s.Reports (s.taken p c l) := by
  cases p <;> rfl

/-- The answer of a MIC ON that ends with desk `d` LIVE, with the level that `s` resolves to (R15). -/
theorem State.Reports.micAnswer {s t : State} (h : s.Reports t) {d : DeskId} {id : Nat} {o : Output} {p : Prog}
    (live : (s.desk d).state = .live id o) : t.derivationPass.micAnswer d o p = ⟨t.derivationPass, .ok,
      be 1 3 ++ be 1 o.code ++ be 1 p.val ++ be 1 (s.derivationPass.program p).level.code⟩ := by
  obtain ⟨relay, feed, desk⟩ := t.derivationPass_desk d
  unfold State.micAnswer
  rw [h.level, desk]
  show (⟨t.derivationPass, .ok, be 1 (t.desk d).state.code ++ _ ++ _ ++ _⟩ : Reply) = _
  rw [h.desk, live]
  rfl

/-- MIC ON that takes the air by the moves `f`, which put the desk on it (R13 to R15). -/
theorem exec_onAir {s : State} {d : DeskId} {id : Nat} {o : Output} {p : Prog} {m : Option DeskId} {f : State → State}
    (h : s.canTake .booth) (live : s.session.state = .live) (hp : (s.boothConfig d.booth).outputs.get o = some p)
    (seated : (s.desk d).state ≠ .vacant) (off : ∀ id, (s.desk d).state ≠ .live id o)
    (free : m = none → ∀ e, (s.program p).liveDesk = some e → e.booth = d.booth)
    (hm : ∀ e, m = some e → (s.program p).liveDesk = some e ∧ e.booth ≠ d.booth ∧
      (s.program p).config.engagement = .override)
    (apart : State.Apart f) (blind : State.Blind f) (on : ((f s).desk d).state = .live id o)
    (hb : ∀ l, takeAir d o p m (s.taken .booth 0x12#8 l) =
      (f (s.taken .booth 0x12#8 l)).derivationPass.micAnswer d o p) :
    exec (.micOn .booth (deskBytes d ++ be 1 o.code)) s = .next (f (s.answered .booth 0x12#8 .ok
      (be 1 3 ++ be 1 o.code ++ be 1 p.val ++ be 1 ((f s).derivationPass.program p).level.code))).derivationPass := by
  have marked : s.otherBoothDesk d p = m := by
    cases m with
    | none =>
      refine Option.eq_none_iff_forall_ne_some.mpr fun e he => ?_
      obtain ⟨holds, other⟩ := State.otherBoothDesk_eq_some.mp he
      exact other (free rfl e holds)
    | some e =>
      obtain ⟨holds, other, -⟩ := hm e rfl
      exact State.otherBoothDesk_eq_some.mpr ⟨holds, other⟩
  refine exec_takeAir h live hp seated off (fun e he => ?_) apart.derivationPass fun l => ?_
  · exact (hm e (marked ▸ he)).2.2
  · rw [marked, hb l]
    exact (blind (s.taken_of_reports ..)).micAnswer on

end Sys2Proof.Machine

namespace Sys2Proof.Proofs
open Sys2Proof Sys2Proof.Machine

/-- Settles O27: in each of the three ways to the air the moves keep apart from the ports, and leave the desk LIVE
(`exec_onAir`). -/
theorem micOnTakesTheAir : Obligations.MicOnTakesTheAir := by
  intro s d id o p m h live hp free hm
  have other : ∀ e, m = some e → e ≠ d := fun e he same => (hm e he).2.1 (by rw [same])
  refine ⟨fun ready alone => ?_, fun q id' o' ready liveQ only hr mode => ?_, fun o' held on ne hh alone => ?_⟩
  · have none := State.otherLivePos_eq_none (s := s) (d := d) fun k _ => alone k
    refine exec_onAir (f := fun s => (s.cutMarked m).goLive d o) h live hp (by rw [ready]; nofun) (by rw [ready]; nofun)
      free hm State.Apart.id.cutMarked.goLive State.Blind.id.cutMarked.goLive (id := id) ?_ fun l => ?_
    · exact State.goLive_live (by rw [State.cutMarked_desk other, ready]) (by rw [State.cutMarked_boothConfig, hp])
    · simp only [takeAir, State.taken_otherLivePos, none, State.taken_desk, ready, DeskState.isLive, Bool.false_eq_true,
        if_false]
  · have elsewhere : (⟨d.booth, q⟩ : DeskId) ≠ d := fun same => by rw [same, ready] at liveQ; cases liveQ
    have one := State.otherLivePos_eq_some (s := s) (d := d) (fun same => elsewhere (by rw [same]))
      (by rw [liveQ]; rfl) only
    refine exec_onAir (f := fun s => ((s.cut ⟨d.booth, q⟩ .handedOver).cutMarked m).goLive d o) h live hp
      (by rw [ready]; nofun) (by rw [ready]; nofun) free hm State.Apart.id.cut.cutMarked.goLive
      State.Blind.id.cut.cutMarked.goLive (id := id) ?_ fun l => ?_
    · exact State.goLive_live (by rw [State.cutMarked_desk other, State.cut_desk elsewhere, ready])
        (by rw [State.cutMarked_boothConfig, State.cut_boothConfig, hp])
    · simp only [takeAir, State.taken_otherLivePos, one, State.taken_request, hr, State.taken_boothConfig, mode]
  · have none := State.otherLivePos_eq_none alone
    refine exec_onAir (f := fun s => (s.cutMarked m).switchOutput d o p) h live hp (by rw [on]; nofun)
      (fun i same => ?_) free hm State.Apart.id.cutMarked.switchOutput State.Blind.id.cutMarked.switchOutput (id := id)
      ?_ fun l => ?_
    · rw [on, DeskState.live.injEq] at same
      exact ne same.2
    · exact State.switchOutput_live (by rw [State.cutMarked_desk other, on]) (by rw [State.cutMarked_boothConfig, hh])
    · simp only [takeAir, State.taken_otherLivePos, none, State.taken_desk, on, DeskState.isLive, if_true]

end Sys2Proof.Proofs
end

section
/-! SUPPORT. Scope, the session leaving LIVE (R21, R34, R153): its cuts are one change of the tables and, after it, their
notices in order. -/

namespace Sys2Proof.Machine

/-! ### One cut (R16) -/

/-- A desk's record with its LIVE state become READY (R16). -/
def Desk.offAir (r : Desk) : Desk :=
  { r with state := match r.state with | .live id _ => .ready id | x => x }

theorem Desk.offAir_of_live {r : Desk} {id : Nat} {o : Output} (h : r.state = .live id o) :
    r.offAir = { r with state := .ready id } := by
  unfold Desk.offAir
  rw [h]

theorem Desk.offAir_of_not_live {r : Desk} (h : r.state.isLive = false) : r.offAir = r := by
  unfold Desk.offAir
  split
  · next live => rw [live] at h; cases h
  · rfl

theorem State.modifyProgram_program (s : State) (p q : Prog) (f : Program → Program) :
    (s.modifyProgram p f).program q = if p = q then f (s.program p) else s.program q := Table.get_modify ..

theorem State.notify_program (s : State) (k : NoticeKind) (w x y z : Nat) (p : Prog) :
    (s.notify k w x y z).program p = s.program p := by
  rw [show s.notify k w x y z = _ from s.notify_reports k w x y z]
  rfl

/-- Every desk after a cut (R16). -/
theorem State.cut_desk_eq (s : State) (d e : DeskId) (k : OffAirCause) :
    (s.cut d k).desk e = if d = e then (s.desk d).offAir else s.desk e := by
  by_cases same : d = e
  · subst same
    have ready {id o} (live : (s.desk d).state = .live id o) :
        (s.setDeskState d (.ready id)).desk d = (s.desk d).offAir := by
      unfold State.setDeskState
      rw [State.modifyDesk_desk, if_pos rfl, Desk.offAir_of_live live]
    rw [if_pos rfl]
    rcases s.cut_cases d k with ⟨off, -, c⟩ | ⟨id, o, live, -, c⟩ | ⟨id, o, p, live, -, c⟩ <;> rw [c]
    · rw [Desk.offAir_of_not_live off]
    · exact ready live
    · rw [State.notify_desk]
      exact ready live
  · rw [if_neg same, State.cut_desk same]

/-- Every program after a cut (R16). -/
theorem State.cut_program (s : State) (d : DeskId) (p : Prog) (k : OffAirCause) : (s.cut d k).program p =
    if s.deskProgram d = some p then { s.program p with liveDesk := none, lastCause := k } else s.program p := by
  rcases s.cut_cases d k with ⟨-, held, c⟩ | ⟨id, o, -, held, c⟩ | ⟨id, o, q, -, held, c⟩ <;> rw [c, held]
  · rfl
  · rfl
  · rw [State.notify_program]
    unfold State.loseLive
    rw [State.modifyProgram_program]
    by_cases same : q = p
    · subst same
      rw [if_pos rfl, if_pos rfl]
      rfl
    · rw [if_neg same, if_neg fun e => same (Option.some.inj e)]
      rfl

/-! ### The cuts of every desk (R21, R34) -/

/-- The CUT notice of desk `i` with cause SESSION, if it holds a program (R16, R34). -/
def State.cutNotice (s v : State) (i : Fin 72) : State :=
  match s.deskProgram (deskAt i) with
  | some p => v.notify .cut ((deskAt i).booth.val + 1) ((deskAt i).pos.val + 1) p.val 6
  | none => v

/-- The HANDOVER_LAPSED notice of booth `b`'s request with cause SESSION, if it holds one (R33, R34). -/
def State.lapseNotice (s v : State) (b : Fin 24) : State :=
  match s.request b with
  | some r => v.notify .handoverLapsed (b.val + 1) (r.requester.val + 1) (r.liveDesk.val + 1) 5
  | none => v

theorem State.cutNotice_reports (s v : State) (i : Fin 72) : v.Reports (s.cutNotice v i) := by
  unfold State.cutNotice
  split
  · exact v.notify_reports ..
  · exact .refl v

theorem State.lapseNotice_reports (s v : State) (b : Fin 24) : v.Reports (s.lapseNotice v b) := by
  unfold State.lapseNotice
  split
  · exact v.notify_reports ..
  · exact .refl v

/-- The state with every handover request removed (R21). -/
def State.noRequests (s : State) : State := { s with booth := { s.booth with requests := .replicate 24 none } }

/-- The cuts of the desks of a list with cause SESSION, in order (R21, R34). -/
def State.cutAll (l : List (Fin 72)) (s : State) : State := l.foldl (fun v i => v.cut (deskAt i) .session) s

/-- The state with every request dropped and every LIVE desk cut with cause SESSION (R21). -/
def State.offAir (s : State) : State := State.cutAll (List.finRange 72) s.noRequests

/-- The session leaving LIVE: the cuts, the HANDOVER_LAPSED notices, and one derivation pass (R21, R34). -/
theorem State.leaveLive_eq (s : State) :
    s.leaveLive = ((List.finRange 24).foldl s.lapseNotice s.offAir).derivationPass := by
  unfold State.leaveLive State.offAir State.cutAll State.noRequests
  dsimp only
  congr 1

theorem State.cutAll_frame (l : List (Fin 72)) (s : State) : State.cutAll l s = { s with
    booth := { s.booth with desks := (State.cutAll l s).booth.desks }
    programs := (State.cutAll l s).programs
    ports := (State.cutAll l s).ports
    faults := (State.cutAll l s).faults } := by
  unfold State.cutAll
  induction l generalizing s with
  | nil => rfl
  | cons i rest ih => rw [List.foldl_cons, ih, State.cut_frame]

theorem State.offAir_frame (s : State) : s.offAir = { s with
    booth := { s.booth with desks := s.offAir.booth.desks, requests := .replicate 24 none }
    programs := s.offAir.programs
    ports := s.offAir.ports
    faults := s.offAir.faults } := by
  have frame := State.cutAll_frame (List.finRange 72) s.noRequests
  unfold State.offAir
  generalize State.cutAll _ _ = v at frame ⊢
  exact frame

/-- The cut of a desk that stands as in `s` reports as its notice does. -/
theorem State.ReportsAs.cut {s w v : State} {i : Fin 72} (h : w.ReportsAs v)
    (hp : v.deskProgram (deskAt i) = s.deskProgram (deskAt i)) :
    (s.cutNotice w i).ReportsAs (v.cut (deskAt i) .session) := by
  unfold State.cutNotice
  rcases v.cut_cases (deskAt i) .session with ⟨-, held, c⟩ | ⟨id, o, -, held, c⟩ | ⟨id, o, p, -, held, c⟩ <;>
    rw [c, ← hp, held]
  · exact h
  · exact h.trans (State.withTables_reportsAs ..)
  · exact State.ReportsAs.notify (h.trans (State.withTables_reportsAs ..))

/-- The cuts of the desks of a list, each of which stands as in `s`: what they report, and what they leave. -/
theorem State.cutAll_reportsAs {s : State} (l : List (Fin 72)) (nodup : l.Nodup) (w v : State) (h : w.ReportsAs v)
    (hc : v.booth.configs = s.booth.configs) (hd : ∀ i ∈ l, v.desk (deskAt i) = s.desk (deskAt i)) :
    (l.foldl s.cutNotice w).ReportsAs (State.cutAll l v) ∧
      (∀ d : DeskId, (State.cutAll l v).desk d = if d.idx ∈ l then (v.desk d).offAir else v.desk d) ∧
      ∀ p, (State.cutAll l v).program p = if ∃ i ∈ l, s.deskProgram (deskAt i) = some p
        then { v.program p with liveDesk := none, lastCause := .session }
        else v.program p := by
  unfold State.cutAll
  induction l generalizing w v with
  | nil => exact ⟨h, fun d => by simp, fun p => by simp⟩
  | cons i rest ih =>
    obtain ⟨hi, nodup⟩ := List.nodup_cons.mp nodup
    have held : v.deskProgram (deskAt i) = s.deskProgram (deskAt i) := by
      unfold State.deskProgram State.boothConfig
      rw [hd i (List.mem_cons_self ..), hc]
    have configs : (v.cut (deskAt i) .session).booth.configs = s.booth.configs := by
      rw [State.cut_frame]; exact hc
    have others (j : Fin 72) (hj : j ≠ i) : (v.cut (deskAt i) .session).desk (deskAt j) = v.desk (deskAt j) :=
      State.cut_desk (fun e => hj (by rw [← idx_deskAt j, ← e, idx_deskAt])) _
    obtain ⟨reports, desks, programs⟩ := ih nodup _ _ (h.cut held) configs fun j hj => by
      rw [others j (fun e => hi (e ▸ hj))]
      exact hd j (List.mem_cons_of_mem _ hj)
    refine ⟨reports, fun d => ?_, fun p => ?_⟩
    · rw [List.foldl_cons, desks d]
      by_cases e : d.idx = i
      · subst e
        rw [if_neg hi, if_pos (List.mem_cons_self ..), State.cut_desk_eq, deskAt_idx, if_pos rfl]
      · have := others d.idx e
        rw [deskAt_idx] at this
        simp [this, e]
    · rw [List.foldl_cons, programs p, State.cut_program, held]
      simp only [List.exists_mem_cons_iff]
      by_cases here : s.deskProgram (deskAt i) = some p
      · simp only [here, true_or, if_true, ite_self]
      · simp only [here, false_or, if_false]

/-- The state with the desks, the requests and the programs that leaving LIVE sets, before its notices (R21). -/
def State.silenced (s : State) : State :=
  { s with
    booth := { s.booth with desks := s.offAir.booth.desks, requests := s.offAir.booth.requests }
    programs := s.offAir.programs }

theorem State.ReportsAs.of_tables (s : State) (b b' : BoothSection) (p : Table Program 32) :
    ({ s with booth := b, programs := p } : State).ReportsAs { s with booth := b' } := rfl

theorem State.offAir_cuts (s : State) : ((List.finRange 72).foldl s.cutNotice s.silenced).ReportsAs s.offAir ∧
    (∀ d, s.offAir.desk d = (s.desk d).offAir) ∧
    ∀ p, ((∃ d, s.deskProgram d = some p) →
        s.offAir.program p = { s.program p with liveDesk := none, lastCause := .session }) ∧
      ((∀ d, s.deskProgram d ≠ some p) → s.offAir.program p = s.program p) := by
  obtain ⟨reports, desks, programs⟩ := State.cutAll_reportsAs (s := s) (List.finRange 72) (List.nodup_finRange 72) s.silenced
    s.noRequests (State.ReportsAs.of_tables ..) rfl fun _ _ => rfl
  refine ⟨reports, fun d => (desks d).trans (if_pos (List.mem_finRange _)), fun p => ⟨fun ⟨d, held⟩ => ?_, fun free => ?_⟩⟩
  · exact (programs p).trans (if_pos ⟨d.idx, List.mem_finRange _, by rw [deskAt_idx, held]⟩)
  · exact (programs p).trans (if_neg fun ⟨i, _, held⟩ => free _ held)

/-- Where a report that goes with `v` stands on the tables of `v`, it is `v`. -/
theorem State.ReportsAs.eq_of_tables {u v w : State} (h : u.ReportsAs v) (k : w.Reports u) (booth : w.booth = v.booth)
    (programs : w.programs = v.programs) (hires : w.hires = v.hires) (retention : w.retention = v.retention) : v = u := by
  unfold State.Reports at k
  rw [show v = _ from h, ← booth, ← programs, ← hires, ← retention, k]
  rfl

/-- The cuts are the change of the tables and then their notices in order (R16, R34). -/
theorem State.offAir_eq (s : State) : s.offAir = (List.finRange 72).foldl s.cutNotice s.silenced := by
  have booth : s.silenced.booth = s.offAir.booth := by
    unfold State.silenced
    rw [State.offAir_frame]
  have programs : s.silenced.programs = s.offAir.programs := by
    unfold State.silenced
    dsimp only
  have hires : s.silenced.hires = s.offAir.hires := by
    rw [State.offAir_frame]
    rfl
  have retention : s.silenced.retention = s.offAir.retention := by
    rw [State.offAir_frame]
    rfl
  exact s.offAir_cuts.1.eq_of_tables
    (State.foldl_reports s.cutNotice s.cutNotice_reports (List.finRange 72) s.silenced) booth programs hires retention

theorem State.silenced_desk (s : State) (d : DeskId) : s.silenced.desk d = (s.desk d).offAir := by
  rw [← s.offAir_cuts.2.1 d]
  unfold State.silenced State.desk
  dsimp only

theorem State.silenced_request (s : State) (b : Fin 24) : s.silenced.request b = none := by
  unfold State.silenced
  rw [State.offAir_frame]
  exact Table.get_replicate ..

theorem State.silenced_frame (s : State) : s.silenced = { s with
    booth := { s.booth with desks := s.silenced.booth.desks, requests := s.silenced.booth.requests }
    programs := s.silenced.programs } := by
  unfold State.silenced
  dsimp only

/-- Under the law of the air the programs with a live desk are those that a desk holds (R6). -/
theorem State.airConsistent.held_iff {s : State} (h : s.airConsistent) (p : Prog) :
    (∃ d, s.deskProgram d = some p) ↔ (s.program p).liveDesk ≠ none := by
  constructor
  · rintro ⟨d, held⟩ off
    obtain ⟨id, o, live, out⟩ := State.live_of_deskProgram held
    obtain ⟨q, out', on⟩ := h.desks d id o live
    rw [out, Option.some.injEq] at out'
    rw [← out', off] at on
    cases on
  · intro on
    obtain ⟨d, on⟩ := Option.ne_none_iff_exists'.mp on
    obtain ⟨id, o, live, out⟩ := h.programs p d on
    exact ⟨d, State.deskProgram_eq live out⟩

/-- A program's record once every desk is off the air (R21). -/
def Program.offAir (r : Program) : Program :=
  { r with liveDesk := none, lastCause := if r.liveDesk = none then r.lastCause else .session }

/-- Every program after the cuts, under the law of the air (R21). -/
theorem State.offAir_program {s : State} (h : s.airConsistent) (p : Prog) : s.offAir.program p = (s.program p).offAir := by
  obtain ⟨held, free⟩ := s.offAir_cuts.2.2 p
  unfold Program.offAir
  by_cases off : (s.program p).liveDesk = none
  · rw [if_pos off, free fun d hd => (h.held_iff p).mp ⟨d, hd⟩ off, ← off]
  · rw [if_neg off, held ((h.held_iff p).mpr off)]

theorem State.silenced_program {s : State} (h : s.airConsistent) (p : Prog) : s.silenced.program p = (s.program p).offAir := by
  rw [← State.offAir_program h]
  unfold State.silenced State.program
  dsimp only

/-! ### What leaving LIVE leaves -/

theorem State.lapses_reports (s : State) : s.offAir.Reports ((List.finRange 24).foldl s.lapseNotice s.offAir) :=
  State.foldl_reports s.lapseNotice s.lapseNotice_reports _ _

/-- Leaving LIVE touches the desks, the requests, the programs, the link, the ports and the capture alone (R21). -/
theorem State.leaveLive_frame (s : State) : s.leaveLive = { s with
    booth := { s.booth with desks := s.leaveLive.booth.desks, requests := .replicate 24 none }
    programs := s.leaveLive.programs
    link := s.leaveLive.link
    ports := s.leaveLive.ports
    faults := s.leaveLive.faults } := by
  have lapses := s.lapses_reports
  rw [State.leaveLive_eq]
  generalize (List.finRange 24).foldl s.lapseNotice s.offAir = v at lapses
  rw [State.derivationPass_frame, show v = _ from lapses, State.offAir_frame]

theorem State.leaveLive_session (s : State) : s.leaveLive.session = s.session := by rw [State.leaveLive_frame]

/-- Every desk after leaving LIVE, but for what the derivation pass sets (R21, R45). -/
theorem State.leaveLive_desk (s : State) (d : DeskId) :
    ∃ relay feed, s.leaveLive.desk d = { (s.desk d).offAir with relay := relay, feed := feed } := by
  obtain ⟨relay, feed, desk⟩ := ((List.finRange 24).foldl s.lapseNotice s.offAir).derivationPass_desk d
  exact ⟨relay, feed, by rw [State.leaveLive_eq, desk, s.lapses_reports.desk, s.offAir_cuts.2.1]⟩

theorem State.derivationPass_program (s : State) (p : Prog) : ∃ source level,
    s.derivationPass.program p = { s.program p with derivedSource := source, level := level } := by
  unfold State.program
  rw [State.derivationPass_programs, Table.get_mapIdx]
  exact ⟨_, _, rfl⟩

theorem State.Reports.program {s t : State} (h : s.Reports t) (p : Prog) : t.program p = s.program p := by
  rw [show t = _ from h]
  rfl

/-- Every program after leaving LIVE, but for what the derivation pass sets (R21, R45). -/
theorem State.leaveLive_program {s : State} (h : s.airConsistent) (p : Prog) : ∃ source level,
    s.leaveLive.program p = { (s.program p).offAir with derivedSource := source, level := level } := by
  obtain ⟨source, level, program⟩ := ((List.finRange 24).foldl s.lapseNotice s.offAir).derivationPass_program p
  exact ⟨source, level, by rw [State.leaveLive_eq, program, s.lapses_reports.program, State.offAir_program h]⟩

theorem State.noRequests_apart : State.Apart State.noRequests := fun s p c r l => by cases p <;> rfl

theorem State.offAir_apart : State.Apart State.offAir :=
  (State.foldl_apart _ (fun i => State.cut_apart (deskAt i) .session) _).comp State.noRequests_apart

theorem State.leaveLive_apart : State.Apart State.leaveLive := by
  intro s p c r l
  have lapses : State.Apart fun u => (List.finRange 24).foldl s.lapseNotice u := by
    refine State.foldl_apart _ (fun b => ?_) _
    unfold State.lapseNotice
    cases s.request b with
    | none => exact State.Apart.id
    | some r => exact State.Apart.id.notify
  have same : (s.placeAnswer p c r l).lapseNotice = s.lapseNotice := by
    funext v b
    unfold State.lapseNotice
    rw [State.placeAnswer_request]
  rw [State.leaveLive_eq, State.leaveLive_eq, same, State.offAir_apart]
  exact lapses.derivationPass s.offAir p c r l

/-! ### The session commands (R152) -/

theorem State.changeSession_of {s : State} {old : Session} (h : s.session.state = old) (new : Session) : s.changeSession new =
    ⟨(s.setSession new).notify .sessionChanged old.code new.code 0 0, .ok, be 1 old.code ++ be 1 new.code⟩ := by
  rw [← h]
  rfl

theorem openSession_open {s : State} (h : s.session.state = .setup) (hold : s.planner.hold = none) :
    openSession () s = s.changeSession .live := by
  unfold openSession
  rw [if_neg (not_not.mpr h), hold]
  rfl

theorem openSession_held {s : State} (h : s.session.state = .setup) (hold : s.planner.hold ≠ none) :
    openSession () s = ⟨s, .held, []⟩ := by
  unfold openSession
  rw [if_neg (not_not.mpr h), if_pos (Option.isSome_iff_ne_none.mpr hold)]
  rfl

theorem endSession_setup {s : State} (h : s.session.state = .setup) : endSession () s = ⟨s, .locked, []⟩ := by
  unfold endSession
  rw [h]
  rfl

theorem endSession_live {s : State} (h : s.session.state = .live) :
    endSession () s = s.leaveLive.changeSession .setup := by
  unfold endSession
  rw [h]

theorem endSession_recess {s : State} (h : s.session.state = .recess) : endSession () s = s.changeSession .setup := by
  unfold endSession
  rw [h]

/-- A session command's change of state, with its notice and its answer, under the update `f` before it (R152). -/
theorem exec_changeSession {s : State} {code : Byte} {body : Unit → State → Reply} {f : State → State} {old new : Session}
    (h : s.canTake .operator) (ha : acceptedOn code .operator = true) (hn : paramsFit code [] = true)
    (hf : State.Apart f) (hs : (f (s.taken .operator code [])).session.state = old)
    (hb : body () (s.taken .operator code []) = (f (s.taken .operator code [])).changeSession new) :
    (.next (s.serve .operator code [] (withParams (noParams? []) body)) : Host.Outcome State Fault Refusal) =
      .next (((f (s.answered .operator code .ok (be 1 old.code ++ be 1 new.code))).setSession new).notify .sessionChanged
        old.code new.code 0 0) := by
  refine exec_of_apart h (by simp) ha hn rfl hf.setSession.notify ?_
  rw [hb, State.changeSession_of hs]

end Sys2Proof.Machine

namespace Sys2Proof.Proofs
open Sys2Proof Sys2Proof.Machine

/-- Settles O57: each command by its body (`exec_of_plain`, `exec_of_apart`), and leaving LIVE by its cuts as one change of the
tables (`State.offAir_eq`), its notices and its derivation pass. -/
theorem sessionCommandsChangeTheState : Obligations.SessionCommandsChangeTheState := by
  refine ⟨fun s p params h hp hl => ⟨exec_of_wrongPort h hl rfl hp, exec_of_wrongPort h hl rfl hp,
    exec_of_wrongPort h hl rfl hp, exec_of_wrongPort h hl rfl hp⟩, fun s h => ⟨fun k => ?_, fun k hold => ?_, fun k hold => ?_,
      fun k => ?_, fun k => ?_, fun k => ?_, fun k => ?_, fun k => ?_, fun k => ?_, fun k => ?_⟩, ?_⟩
  · exact exec_of_plain h (by simp) rfl rfl rfl (if_pos (by rwa [State.taken_session]))
  · exact exec_of_plain h (by simp) rfl rfl rfl
      (openSession_held (by rwa [State.taken_session]) (by rwa [State.taken_planner]))
  · exact exec_changeSession (f := fun s => s) (old := .setup) (new := .live) h rfl rfl State.Apart.id
      (by rwa [State.taken_session]) (openSession_open (by rwa [State.taken_session]) (by rwa [State.taken_planner]))
  · exact exec_of_plain h (by simp) rfl rfl rfl (if_pos (by rwa [State.taken_session]))
  · exact exec_changeSession (f := State.leaveLive) (old := .live) (new := .recess) h rfl rfl State.leaveLive_apart
      (by rwa [State.leaveLive_session, State.taken_session]) (if_neg (not_not.mpr (by rwa [State.taken_session])))
  · exact exec_of_plain h (by simp) rfl rfl rfl (if_pos (by rwa [State.taken_session]))
  · exact exec_changeSession (f := fun s => s) (old := .recess) (new := .live) h rfl rfl State.Apart.id
      (by rwa [State.taken_session]) (if_neg (not_not.mpr (by rwa [State.taken_session])))
  · exact exec_of_plain h (by simp) rfl rfl rfl (endSession_setup (by rwa [State.taken_session]))
  · exact exec_changeSession (f := State.leaveLive) (old := .live) (new := .setup) h rfl rfl State.leaveLive_apart
      (by rwa [State.leaveLive_session, State.taken_session]) (endSession_live (by rwa [State.taken_session]))
  · exact exec_changeSession (f := fun s => s) (old := .recess) (new := .setup) h rfl rfl State.Apart.id
      (by rwa [State.taken_session]) (endSession_recess (by rwa [State.taken_session]))
  · rintro s t air rfl
    refine ⟨⟨s.silenced, s.silenced_request, s.silenced_desk, State.silenced_program air, s.silenced_frame, ?_⟩,
      fun b => ?_, fun d => ?_, fun p => ?_, ?_⟩
    · rw [State.leaveLive_eq, State.offAir_eq]
      rfl
    · rw [State.leaveLive_frame]
      exact Table.get_replicate ..
    · obtain ⟨relay, feed, desk⟩ := s.leaveLive_desk d
      rw [desk]
      exact ⟨rfl, rfl, rfl, rfl⟩
    · obtain ⟨source, level, program⟩ := State.leaveLive_program air p
      rw [program]
      exact ⟨rfl, rfl⟩
    · rw [State.leaveLive_frame]

end Sys2Proof.Proofs
end

section
/-! SUPPORT. Scope, SET BOOTH (R3, R4, R65): its parameters as read from bytes, and what it does by its outputs, by a plan
hold and by a change of the committed outputs. -/

namespace Sys2Proof.Machine

/-! ### The selections of a booth (R4) -/

theorem Outputs.names_iff (x : Outputs) (p : Prog) : x.names p = true ↔ x.a = some p ∨ x.b = some p := by
  simp [Outputs.names]

theorem State.revertBooth_desk (s : State) (b : Fin 24) (d : DeskId) : (s.revertBooth b).desk d =
    if d.booth = b then { s.desk d with selected := (s.boothConfig b).outputs.revert (s.desk d).selected }
    else s.desk d := by
  show (s.booth.desks.mapIdx _).get d.idx = _
  rw [Table.get_mapIdx, deskAt_idx]
  rfl

theorem State.revertBooth_apart (b : Fin 24) : State.Apart fun s => s.revertBooth b := fun s p c r l => by
  cases p <;> rfl

/-! ### The parameters of SET BOOTH (R3) -/

theorem handoverMode?_byte (m : HandoverMode) : handoverMode? (BitVec.ofNat 8 m.code) = some m := by cases m <;> rfl

theorem expiryPolicy?_byte (e : ExpiryPolicy) : expiryPolicy? (BitVec.ofNat 8 e.code) = some e := by cases e <;> rfl

theorem outputs?_of_legal {x : Outputs} (h : x.legal) : outputs? x.a x.b = some x := by
  obtain ⟨-, -, h⟩ := h
  obtain ⟨a, b⟩ := x
  cases b with
  | none => cases a <;> rfl
  | some y =>
    cases a with
    | none => simp at h
    | some x =>
      have differ : x ≠ y := by simpa using h
      exact if_neg differ

/-- The parameters of a SET BOOTH (R3). -/
def setBoothBytes (b : Fin 24) (x : Outputs) (mode : HandoverMode) (w : Nat) (policy : ExpiryPolicy) (l : Nat) : List Byte :=
  be 1 (b.val + 1) ++ optProgBytes x.a ++ optProgBytes x.b ++ be 1 mode.code ++ be 1 w ++ be 1 policy.code ++ be 1 l

section bytes
variable (b : Fin 24) (x : Outputs) (mode : HandoverMode) (w : Nat) (policy : ExpiryPolicy) (l : Nat)

theorem setBoothBytes_eq : setBoothBytes b x mode w policy l = BitVec.ofNat 8 (b.val + 1) :: (optProgBytes x.a ++
    (optProgBytes x.b ++ [BitVec.ofNat 8 mode.code, BitVec.ofNat 8 w, BitVec.ofNat 8 policy.code, BitVec.ofNat 8 l])) := by
  simp [setBoothBytes, be_one]

theorem setBoothBytes_fit : paramsFit 0x54#8 (setBoothBytes b x mode w policy l) = true := by
  rw [setBoothBytes_eq]
  exact optionalThen_prog _ _ _ (optionalThen_prog _ _ _ rfl)

theorem optProgBytes_length (p : Option Prog) : (optProgBytes p).length ≤ 2 := by
  cases p <;> simp [optProgBytes, optBytes, be]

theorem setBoothBytes_length : (setBoothBytes b x mode w policy l).length ≤ 250 := by
  have ha := optProgBytes_length x.a
  have hb := optProgBytes_length x.b
  simp only [setBoothBytes_eq, List.length_cons, List.length_append, List.length_nil]
  omega

theorem setBoothParams?_bytes {x : Outputs} {w l : Nat} (hx : x.legal) (hw : w < 256) (hl : l < 256) :
    setBoothParams? (setBoothBytes b x mode w policy l) = some ⟨b, x, mode, w, policy, l⟩ := by
  rw [setBoothBytes_eq]
  simp only [setBoothParams?, takeOptional_prog, booth?_byte, optProg?_output hx.1, optProg?_output hx.2.1,
    handoverMode?_byte, expiryPolicy?_byte, outputs?_of_legal hx, byte_ofNat hw, byte_ofNat hl, Option.map_some]

end bytes

/-! ### What SET BOOTH does (R3, R65) -/

theorem setBooth_locked {s : State} {a : BoothArgs} (h : s.session.state ≠ .setup)
    (differs : a.outputs ≠ s.plannedOutputs a.booth) : setBooth a s = ⟨s, .locked, []⟩ := if_pos ⟨h, differs⟩

theorem State.outputConfigured_iff (s : State) (o : Option Prog) :
    s.outputConfigured o = true ↔ ∀ p, o = some p → (s.plannedConfig p).configured = true := by
  cases o <;> simp [State.outputConfigured]

section unlocked
variable {s : State} {a : BoothArgs} (h : s.session.state = .setup ∨ a.outputs = s.plannedOutputs a.booth)
include h

theorem setBooth_notConfigured {p : Prog} (names : a.outputs.a = some p ∨ a.outputs.b = some p)
    (hp : (s.plannedConfig p).configured = false) : setBooth a s = ⟨s, .notConfigured, []⟩ := by
  have missing : ¬ (s.outputConfigured a.outputs.a = true ∧ s.outputConfigured a.outputs.b = true) := by
    rw [State.outputConfigured_iff, State.outputConfigured_iff]
    rintro ⟨ha, hb⟩
    rcases names with n | n
    · rw [ha p n] at hp; cases hp
    · rw [hb p n] at hp; cases hp
  unfold setBooth
  rw [if_neg (fun k => h.elim k.1 k.2), if_pos missing]
  rfl

theorem setBooth_written (configured : ∀ p, a.outputs.a = some p ∨ a.outputs.b = some p →
    (s.plannedConfig p).configured = true) : setBooth a s =
      ⟨s.writeBooth a.booth a.stored, if a.clamped then .okClamped else .ok, boothBytes a.outputs a.stored⟩ := by
  have found : s.outputConfigured a.outputs.a = true ∧ s.outputConfigured a.outputs.b = true :=
    ⟨(s.outputConfigured_iff _).mpr fun p e => configured p (.inl e),
      (s.outputConfigured_iff _).mpr fun p e => configured p (.inr e)⟩
  unfold setBooth
  rw [if_neg (fun k => h.elim k.1 k.2), if_neg (not_not.mpr found)]

end unlocked

/-- Whether SET BOOTH held a value within its range is seen from what it stores (R3). -/
theorem BoothArgs.result_eq (a : BoothArgs) : (if a.clamped then Result.okClamped else .ok) =
    if a.stored.window = a.window ∧ a.stored.turnLimit = a.turnLimit then .ok else .okClamped := by
  by_cases fits : a.stored.window = a.window ∧ a.stored.turnLimit = a.turnLimit
  · rw [if_pos fits, if_neg (by simp [BoothArgs.clamped, fits])]
  · have clamped : a.clamped = true := by
      simpa [BoothArgs.clamped, or_iff_not_imp_left] using fits
    rw [if_neg fits, if_pos clamped]

section write
variable {s : State} {b : Fin 24} {c : BoothConfig}

theorem State.writeBooth_held {h : Shadow} (hold : s.planner.hold = some h) : s.writeBooth b c =
    (s.setBoothConfig b { c with outputs := (s.boothConfig b).outputs }).setHold
      (some { h with outputs := h.outputs.set b c.outputs }) := by
  unfold State.writeBooth
  rw [hold]
  rfl

variable (hold : s.planner.hold = none)
include hold

theorem State.writeBooth_same (same : c.outputs = (s.boothConfig b).outputs) : s.writeBooth b c = s.setBoothConfig b c := by
  unfold State.writeBooth
  rw [hold]
  exact if_pos same

theorem State.writeBooth_changed (changed : c.outputs ≠ (s.boothConfig b).outputs) :
    s.writeBooth b c = ((s.setBoothConfig b c).revertBooth b).derivationPass := by
  unfold State.writeBooth
  rw [hold]
  exact if_neg changed

end write

/-- SET BOOTH by what its body does (R3). -/
theorem exec_setBooth {s : State} {b : Fin 24} {x : Outputs} {mode : HandoverMode} {w : Nat} {policy : ExpiryPolicy}
    {l : Nat} {f : State → State} {r : Result} {fields : List Byte} (h : s.canTake .operator) (hx : x.legal) (hw : w < 256)
    (hl : l < 256) (hf : State.Apart f) (hb : ∀ k, setBooth ⟨b, x, mode, w, policy, l⟩ (s.taken .operator 0x54#8 k) =
      ⟨f (s.taken .operator 0x54#8 k), r, fields⟩) :
    exec (.setBooth .operator (setBoothBytes b x mode w policy l)) s = .next (f (s.answered .operator 0x54#8 r fields)) :=
  exec_of_apart h (setBoothBytes_length ..) rfl (setBoothBytes_fit ..) (setBoothParams?_bytes _ _ _ hx hw hl) hf (hb _)

theorem State.taken_plannedOutputs (s : State) (p : Port) (k : Byte) (l : List Byte) (b : Fin 24) :
    (s.taken p k l).plannedOutputs b = s.plannedOutputs b := by cases p <;> rfl

theorem State.taken_plannedConfig (s : State) (p : Port) (k : Byte) (l : List Byte) (q : Prog) :
    (s.taken p k l).plannedConfig q = s.plannedConfig q := by cases p <;> rfl

/-- SET BOOTH taken, by what its write does (R3). -/
theorem exec_setBooth_written {s : State} {a : BoothArgs} {f : State → State} (h : s.canTake .operator)
    (hx : a.outputs.legal) (hw : a.window < 256) (hl : a.turnLimit < 256)
    (unlocked : s.session.state = .setup ∨ a.outputs = s.plannedOutputs a.booth)
    (configured : ∀ p, a.outputs.a = some p ∨ a.outputs.b = some p → (s.plannedConfig p).configured = true)
    (hf : State.Apart f)
    (hb : ∀ k, (s.taken .operator 0x54#8 k).writeBooth a.booth a.stored = f (s.taken .operator 0x54#8 k)) :
    exec (.setBooth .operator (setBoothBytes a.booth a.outputs a.mode a.window a.policy a.turnLimit)) s =
      .next (f (s.answered .operator 0x54#8
        (if a.stored.window = a.window ∧ a.stored.turnLimit = a.turnLimit then .ok else .okClamped)
        (boothBytes a.outputs a.stored))) := by
  refine exec_setBooth h hx hw hl hf fun k => ?_
  rw [setBooth_written (by rwa [State.taken_session, State.taken_plannedOutputs])
    (by simpa only [State.taken_plannedConfig] using configured), BoothArgs.result_eq, hb]

end Sys2Proof.Machine

namespace Sys2Proof.Proofs
open Sys2Proof Sys2Proof.Machine

/-- Settles O36: the reverted selections desk by desk, and SET BOOTH by its refusals and by the three ways of its write
(`State.writeBooth_held`, `State.writeBooth_same`, `State.writeBooth_changed`). -/
theorem setBoothWritesTheRecord : Obligations.SetBoothWritesTheRecord := by
  refine ⟨fun s b d => ?_, ?_⟩
  · rw [State.revertBooth_desk]
    unfold Outputs.revert
    simp only [Outputs.names_iff]
    by_cases here : d.booth = b
    · simp only [here, true_and, if_true]
      split <;> rfl
    · simp only [here, false_and, if_false]
  · rintro s b x mode w policy l _ _ _ _ h hx hw hl rfl rfl rfl rfl
    refine ⟨fun locked differs => ?_, fun unlocked => ⟨fun ⟨p, names, missing⟩ => ?_, fun configured =>
      ⟨fun shadow hold => ?_, fun hold => ⟨fun same => ?_, fun changed => ?_⟩⟩⟩⟩
    · exact exec_setBooth h hx hw hl State.Apart.id fun k => setBooth_locked (by rwa [State.taken_session])
        (by rwa [State.taken_plannedOutputs])
    · exact exec_setBooth h hx hw hl State.Apart.id fun k => setBooth_notConfigured
        (by rwa [State.taken_session, State.taken_plannedOutputs]) names (by rwa [State.taken_plannedConfig])
    · refine exec_setBooth_written (a := ⟨b, x, mode, w, policy, l⟩) h hx hw hl unlocked configured
        ((State.setHold_apart _).comp (State.setBoothConfig_apart _ _)) fun k => ?_
      rw [State.writeBooth_held (by rwa [State.taken_planner]), State.taken_boothConfig]
      rfl
    · exact exec_setBooth_written (a := ⟨b, x, mode, w, policy, l⟩) h hx hw hl unlocked configured
        (State.setBoothConfig_apart _ _) fun k =>
          State.writeBooth_same (by rwa [State.taken_planner]) (by rwa [State.taken_boothConfig])
    · exact exec_setBooth_written (a := ⟨b, x, mode, w, policy, l⟩) h hx hw hl unlocked configured
        ((State.revertBooth_apart b).comp (State.setBoothConfig_apart _ _)).derivationPass fun k =>
          State.writeBooth_changed (by rwa [State.taken_planner]) (by rwa [State.taken_boothConfig])

end Sys2Proof.Proofs
end

section
/-! SUPPORT. Scope, the reads of the tables (R8, R43, R58, R95, R113, R163): their selectors as read from bytes, and each read
as the fields of what it finds. -/

namespace Sys2Proof.Machine

/-! ### Selectors -/

theorem interpreterParams?_byId {id : Nat} (h : 1 ≤ id) (k : id ≤ 65535) :
    interpreterParams? (be 1 1 ++ be 2 id) = some (.inl id) := by
  rw [be_two, be_one]
  simp [interpreterParams?, num_two (show id < 65536 by omega), positive?_pos h]

theorem interpreterParams?_byOrder {k : Nat} (h : 1 ≤ k) (h' : k ≤ 96) :
    interpreterParams? (be 1 2 ++ be 2 k) = some (.inr k) := by
  rw [be_two, be_one]
  simp [interpreterParams?, num_two (show k < 65536 by omega), h, h']

theorem interpreterParams?_none {k v w : Byte}
    (h : (k.toNat ≠ 1 ∧ k.toNat ≠ 2) ∨ num [v, w] = 0 ∨ (k.toNat = 2 ∧ 96 < num [v, w])) :
    interpreterParams? [k, v, w] = none := by
  unfold interpreterParams?
  dsimp only
  split
  · have zero : num [v, w] = 0 := by omega
    rw [zero]
    rfl
  · split
    · exact if_neg (by omega)
    · rfl

/-- READ HIRE's selector from its two fields (R113). -/
def hireSelector? (k : Byte) (n : Nat) : Option HireSelector :=
  match k.toNat with
  | 1 => (hire? n).map .byNumber
  | 2 => if 1 ≤ n ∧ n ≤ 512 then some (.byOrder n) else none
  | _ => none

theorem readHireParams?_eq (k v w part : Byte) : readHireParams? [k, v, w, part] =
    match hireSelector? k (num [v, w]), part.toNat with
    | some x, 1 => some (x, true)
    | some x, 2 => some (x, false)
    | _, _ => none := rfl

theorem readHireParams?_of_selector {k n : Nat} {lines : Bool} {sel : HireSelector} (h : n < 65536)
    (hk : hireSelector? (BitVec.ofNat 8 k) n = some sel) :
    readHireParams? (be 1 k ++ be 2 n ++ be 1 (if lines then 1 else 2)) = some (sel, lines) := by
  rw [be_two, be_one, be_one]
  show readHireParams? [_, _, _, _] = _
  rw [readHireParams?_eq, num_two h, hk]
  cases lines <;> rfl

theorem hireSelector?_none {k : Byte} {n : Nat} (h : (k.toNat ≠ 1 ∧ k.toNat ≠ 2) ∨ n = 0 ∨ (k.toNat = 1 ∧ 9999 < n) ∨
    (k.toNat = 2 ∧ 512 < n)) : hireSelector? k n = none := by
  unfold hireSelector?
  split
  · rw [hire?, if_neg (by omega)]
    rfl
  · exact if_neg (by omega)
  · rfl

theorem readHireParams?_none {k v w part : Byte} (h : hireSelector? k (num [v, w]) = none ∨
    (part.toNat ≠ 1 ∧ part.toNat ≠ 2)) : readHireParams? [k, v, w, part] = none := by
  rw [readHireParams?_eq]
  split
  · next sel one => rcases h with h | h <;> simp_all
  · next sel two => rcases h with h | h <;> simp_all
  · rfl

/-- READ RECEIVER's selector from its two fields (R95). -/
def receiverSelector? (k : Byte) (n : Nat) : Option ReceiverSelector :=
  match k.toNat with
  | 1 => (positive? n).map .byNumber
  | 2 => if 1 ≤ n ∧ n ≤ 2048 then some (.byOrder n) else none
  | 3 => (index? 1 512 n).map .bySlot
  | _ => none

theorem readReceiverParams?_eq (k v w : Byte) : readReceiverParams? [k, v, w] = receiverSelector? k (num [v, w]) := rfl

theorem readReceiverParams?_of_selector {k n : Nat} {sel : ReceiverSelector} (h : n < 65536)
    (hk : receiverSelector? (BitVec.ofNat 8 k) n = some sel) : readReceiverParams? (be 1 k ++ be 2 n) = some sel := by
  rw [be_two, be_one]
  show readReceiverParams? [_, _, _] = _
  rw [readReceiverParams?_eq, num_two h, hk]

theorem receiverSelector?_none {k : Byte} {n : Nat} (h : (k.toNat ≠ 1 ∧ k.toNat ≠ 2 ∧ k.toNat ≠ 3) ∨ n = 0 ∨
    (k.toNat = 2 ∧ 2048 < n) ∨ (k.toNat = 3 ∧ 512 < n)) : receiverSelector? k n = none := by
  unfold receiverSelector?
  split
  · have zero : n = 0 := by omega
    rw [zero]
    rfl
  · exact if_neg (by omega)
  · rw [index?_none (by omega)]
    rfl
  · rfl

/-! ### What each read answers -/

@[simp] theorem State.taken_findHire (s : State) (p : Port) (c : Byte) (l : List Byte) (sel : HireSelector) :
    (s.taken p c l).findHire sel = s.findHire sel := by cases p <;> rfl

@[simp] theorem State.taken_hireCounts (s : State) (p : Port) (c : Byte) (l : List Byte) :
    (s.taken p c l).hireCounts = s.hireCounts := by cases p <;> rfl

@[simp] theorem State.taken_findReceiver (s : State) (p : Port) (c : Byte) (l : List Byte) (sel : ReceiverSelector) :
    (s.taken p c l).findReceiver sel = s.findReceiver sel := by cases p <;> rfl

@[simp] theorem State.taken_registryCounts (s : State) (p : Port) (c : Byte) (l : List Byte) :
    (s.taken p c l).registryCounts = s.registryCounts := by cases p <;> rfl

@[simp] theorem State.taken_livePos (s : State) (p : Port) (c : Byte) (l : List Byte) (b : Fin 24) :
    (s.taken p c l).livePos b = s.livePos b := by cases p <;> rfl

section reads
variable {s : State} {p : Port} (h : s.canTake p)
include h

/-- READ INTERPRETER of an ID (R8). -/
theorem exec_readInterpreter_byId {id : Nat} (h1 : 1 ≤ id) (h2 : id ≤ 65535) :
    exec (.readInterpreter p (be 1 1 ++ be 2 id)) s = .next (match s.interpreter id with
      | some e => s.answered p 0x64#8 .ok (s.interpreterAnswer e).fields
      | none => s.answered p 0x64#8 .unknown []) := by
  have plain {r fields} := exec_of_plain (body := readInterpreter) (r := r) (fields := fields) (code := 0x64#8) h
    (params := be 1 1 ++ be 2 id) (by simp [be]) rfl rfl (interpreterParams?_byId h1 h2)
  cases find : s.interpreter id with
  | none => exact plain (by simp only [readInterpreter, State.taken_interpreter, find, State.refuse])
  | some e =>
    exact plain (by simp only [readInterpreter, State.taken_interpreter, find, State.interpreterAnswer, State.taken_booth])

/-- READ INTERPRETER of a place in the table (R8). -/
theorem exec_readInterpreter_byOrder {k : Nat} (h1 : 1 ≤ k) (h2 : k ≤ 96) :
    exec (.readInterpreter p (be 1 2 ++ be 2 k)) s = .next (match s.booth.interpreters[k - 1]? with
      | some e => s.answered p 0x64#8 .ok (s.interpreterAnswer e).fields
      | none => s.answered p 0x64#8 .empty []) := by
  have plain {r fields} := exec_of_plain (body := readInterpreter) (r := r) (fields := fields) (code := 0x64#8) h
    (params := be 1 2 ++ be 2 k) (by simp [be]) rfl rfl (interpreterParams?_byOrder h1 h2)
  cases find : s.booth.interpreters[k - 1]? with
  | none => exact plain (by simp only [readInterpreter, State.taken_booth, find, State.refuse])
  | some e => exact plain (by simp only [readInterpreter, State.taken_booth, find, State.interpreterAnswer])

/-- READ HIRE of what its selector finds (R113). -/
theorem exec_readHire {k n : Nat} {lines : Bool} {sel : HireSelector} (hn : n < 65536)
    (hk : hireSelector? (BitVec.ofNat 8 k) n = some sel) :
    exec (.readHire p (be 1 k ++ be 2 n ++ be 1 (if lines then 1 else 2))) s = .next (match s.findHire sel with
      | some h => s.answered p 0x35#8 .ok ((if lines then h.lineBytes else h.chargeBytes) ++ s.hireCounts)
      | none => s.answered p 0x35#8 sel.missing s.hireCounts) := by
  have plain {r fields} := exec_of_plain (body := fun a => readHire a.1 a.2) (r := r) (fields := fields)
    (code := 0x35#8) h (params := be 1 k ++ be 2 n ++ be 1 (if lines then 1 else 2)) (by simp [be]) rfl rfl
    (readHireParams?_of_selector (lines := lines) hn hk)
  cases find : s.findHire sel with
  | none => exact plain (by simp only [readHire, State.taken_findHire, find, State.taken_hireCounts])
  | some x => exact plain (by simp only [readHire, State.taken_findHire, find, State.taken_hireCounts])

/-- READ RECEIVER of what its selector finds (R95). -/
theorem exec_readReceiver {k n : Nat} {sel : ReceiverSelector} (hn : n < 65536)
    (hk : receiverSelector? (BitVec.ofNat 8 k) n = some sel) :
    exec (.readReceiver p (be 1 k ++ be 2 n)) s = .next (match s.findReceiver sel with
      | some r => s.answered p 0x36#8 .ok (r.bytes ++ s.registryCounts)
      | none => s.answered p 0x36#8 sel.missing s.registryCounts) := by
  have plain {r fields} := exec_of_plain (body := readReceiver) (r := r) (fields := fields) (code := 0x36#8) h
    (params := be 1 k ++ be 2 n) (by simp [be]) rfl rfl (readReceiverParams?_of_selector hn hk)
  cases find : s.findReceiver sel with
  | none => exact plain (by simp only [readReceiver, State.taken_findReceiver, find, State.taken_registryCounts])
  | some r => exact plain (by simp only [readReceiver, State.taken_findReceiver, find, State.taken_registryCounts])

/-- READ DAY SUMMARY (R163). -/
theorem exec_readDaySummary : exec (.readDaySummary p []) s = .next (match s.session.summary with
    | some d => s.answered p 0x65#8 .ok (d.bytes ++ (be 2 s.session.dayNumber ++ s.session.counters.bytes))
    | none => s.answered p 0x65#8 .empty (be 2 s.session.dayNumber ++ s.session.counters.bytes)) := by
  have plain {r fields} := exec_of_plain (body := readDaySummary) (r := r) (fields := fields) (code := 0x65#8) h
    (params := []) (by simp) rfl rfl (parsed := noParams? []) rfl
  cases find : s.session.summary with
  | none => exact plain (by simp only [readDaySummary, State.taken_session, find])
  | some d => exact plain (by simp only [readDaySummary, State.taken_session, find])

end reads

/-! ### The fields of the records -/

theorem LineAccount.chargeBytes_eq (l : LineAccount) : l.chargeBytes = be 1 (if l.outcome = .lost then 2 else 1)
    ++ be 3 l.minutes ++ be 3 l.gross ++ be 3 l.credited ++ be 3 l.charge := by
  unfold LineAccount.chargeBytes
  cases l.outcome <;> rfl

theorem Hire.chargeBytes_eq (h : Hire) : h.chargeBytes = be 2 h.number
    ++ be 1 (match h.state with | .opened => 1 | .settling => 2) ++ optBytes 2 h.closingPos ++ match h.account with
      | none => be 1 0
      | some a => be 1 1 ++ be 1 a.lines.length
        ++ a.lines.flatMap (fun l => be 1 (if l.outcome = .lost then 2 else 1) ++ be 3 l.minutes ++ be 3 l.gross
          ++ be 3 l.credited ++ be 3 l.charge)
        ++ be 4 a.total ++ be 4 (BitVec.ofInt 32 a.balance).toNat := by
  simp only [← LineAccount.chargeBytes_eq]
  rfl

theorem State.settlingCount_eq (s : State) : s.settlingCount = s.hires.records.countP fun h => h.state = .settling := by
  unfold State.settlingCount
  rw [List.countP_eq_length_filter]
  rfl

end Sys2Proof.Machine

namespace Sys2Proof.Proofs
open Sys2Proof Sys2Proof.Machine

/-- Settles O21: each read by its selector, under its answer, and the fields record by record. -/
theorem tableReadsAnswerAndChangeNothing : Obligations.TableReadsAnswerAndChangeNothing := by
  intro s p hireCounts registryCounts dayCounts lineBytes chargeBytes receiverBytes countBytes h hHires hRegistry hLine
    hCharge hReceiver hCount hDay
  have line : lineBytes = Hire.lineBytes := funext hLine
  have charge : chargeBytes = Hire.chargeBytes := funext fun x => (hCharge x).trans x.chargeBytes_eq.symm
  have receiver : receiverBytes = Receiver.bytes := funext hReceiver
  have count : countBytes = DayCounters.bytes := funext hCount
  have hires : hireCounts = s.hireCounts := by
    rw [hHires, ← State.settlingCount_eq]
    rfl
  have registry : registryCounts = s.registryCounts := hRegistry
  subst line charge receiver count hires registry hDay
  have read {code : Byte} {α : Type} {params : List Byte} {parsed : Option α} {a : α} {body : α → State → Reply}
      {fields : List Byte} := @exec_of_plain α s p code params parsed a body .ok fields h
  refine ⟨fun d => ?_, fun b => ?_, fun id h1 h2 => exec_readInterpreter_byId h h1 h2,
    fun k h1 h2 => exec_readInterpreter_byOrder h h1 h2, fun q => ?_,
    fun n h1 h2 lines => exec_readHire (k := 1) (sel := .byNumber n) h (by omega) ?_,
    fun n h1 h2 lines => exec_readHire (k := 2) (sel := .byOrder n) h (by omega) ?_,
    fun n h1 h2 => exec_readReceiver (k := 1) (sel := .byNumber n) h (by omega) ?_,
    fun n h1 h2 => exec_readReceiver (k := 2) (sel := .byOrder n) h (by omega) ?_,
    fun k => exec_readReceiver (k := 3) (sel := .bySlot k) h (by omega) ?_, fun k v w out => ?_, fun k v w part out => ?_,
    fun k v w out => ?_, exec_readDaySummary h⟩
  · refine read (by simp [deskBytes, be]) rfl rfl (deskParam?_bytes d) ?_
    simp only [readDesk, State.taken_desk, State.taken_deskProgram, State.taken_program]
    cases (s.desk d).state <;> rfl
  · refine read (by simp [be]) rfl rfl (boothParam?_bytes b) ?_
    simp only [readBooth, State.taken_boothConfig, State.taken_livePos, State.taken_request]
    rfl
  · refine read (by simp [be]) rfl rfl (prog?_byte q) ?_
    simp only [readProgram, State.taken_program]
    rfl
  · exact congrArg (Option.map _) (hire?_some h1 h2)
  · exact if_pos ⟨h1, h2⟩
  · exact congrArg (Option.map _) (positive?_pos h1)
  · exact if_pos ⟨h1, h2⟩
  · exact congrArg (Option.map _) (index?_eq k (Nat.add_comm ..))
  · exact exec_of_malformed h (by simp) rfl (interpreterParams?_none out)
  · refine exec_of_malformed h (by simp) rfl (readHireParams?_none ?_)
    rcases out with out | out | out | out | out
    · exact .inl (hireSelector?_none (.inl out))
    · exact .inr out
    · exact .inl (hireSelector?_none (.inr (.inl out)))
    · exact .inl (hireSelector?_none (.inr (.inr (.inl out))))
    · exact .inl (hireSelector?_none (.inr (.inr (.inr out))))
  · exact exec_of_malformed h (by simp) rfl (receiverSelector?_none out)

end Sys2Proof.Proofs
end

section
/-! SUPPORT. Scope, the port's checks on a request (R167, R169): every request's event serves it, a check that decides answers
it however it is brought, and the lengths that fit each command. -/

namespace Sys2Proof.Machine

/-! ### A request that a check decides -/

/-- The event of a request serves it on its port, with parameters that a frame can declare (R169, R178). -/
theorem exec_of_request {c : Instr} {p : Port} {code : Byte} {params : List Byte} (w : c.wellFormed = true)
    (h : requestOf c = some (p, code, params)) (s : State) :
    params.length ≤ 250 ∧ ∃ body, exec c s = .next (s.serve p code params body) := by
  cases c
  case unknownCommand q k l =>
    obtain ⟨unknown, short⟩ := Bool.and_eq_true_iff.mp w
    cases h
    exact ⟨of_decide_eq_true short, _, congrArg _ (if_pos unknown)⟩
  -- An event that is no request has no port to name.
  all_goals cases h
  all_goals exact ⟨of_decide_eq_true w, _, rfl⟩

theorem readFrame_whole {code len : Byte} {params more : List Byte} (h : params.length = len.toNat) (k : len.toNat ≤ 250) :
    readFrame (code :: len :: (params ++ more)) = .whole code params := by
  have fits : ¬ (250 < len.toNat ∨ (params ++ more).length < len.toNat) := by
    rw [List.length_append]
    omega
  unfold readFrame
  dsimp only
  rw [if_neg fits, ← h, List.take_left]

/-- A request that a check of the port decides is answered there and then, brought either way (R167, R169). -/
theorem exec_of_check {c : Instr} {s : State} {p : Port} {code : Byte} {params : List Byte} {r : Result}
    (brings : Brings c p code params) (powered : s.powered = true) (running : s.resetAsserted = false)
    (idle : (s.port p).request = none) (settled : p = .operator → s.ports.selfReset = false)
    (check : s.portCheck p code params = some r) : exec c s = .next (s.answered p code r []) := by
  rcases brings with ⟨w, request⟩ | ⟨len, more, rfl, length, short⟩
  · obtain ⟨short, body, serves⟩ := exec_of_request w request s
    rw [serves, State.serve_refused s p code params body r powered running idle settled short check]
  · have operating : s.operating = true := by simp [State.operating, powered, running]
    have free : (s.port p).busy = false := by simp [PortState.busy, idle]
    show execRequestTransaction p _ s = _
    unfold execRequestTransaction
    rw [if_pos operating, free, readFrame_whole length short]
    show Host.Outcome.next (s.takeRequest p code params) = _
    rw [State.takeRequest_plain s p code params settled, check]

/-! ### The lengths that fit (R169, R170) -/

/-- A command whose parameters have one length. -/
theorem paramsFit_of_length {code : Byte} {n : Nat} (h : paramLength? code = some n) (params : List Byte) :
    paramsFit code params = true ↔ params.length = n := by
  unfold paramsFit
  split
  case h_6 => rw [h, beq_iff_eq, Option.some.injEq]
  -- The five codes whose parameters have no one length.
  all_goals next special => simp [paramLength?, special] at h

/-- A list under its count byte (R170). -/
theorem listFits_iff (w lo hi : Nat) (bs : List Byte) : listFits w lo hi bs = true ↔
    ∃ n l, bs = n :: l ∧ l.length = w * n.toNat ∧ lo ≤ n.toNat ∧ n.toNat ≤ hi := by
  cases bs with
  | nil => simp [listFits]
  | cons n l => simp [listFits]

/-- A number of bytes, and then bytes that `f` takes. -/
theorem takes_drop_iff {f : List Byte → Bool} {k : Nat} {bs : List Byte} :
    (k ≤ bs.length ∧ f (bs.drop k) = true) ↔ ∃ a rest, bs = a ++ rest ∧ a.length = k ∧ f rest = true := by
  constructor
  · rintro ⟨long, fits⟩
    exact ⟨bs.take k, bs.drop k, (List.take_append_drop k bs).symm, by simp [long], fits⟩
  · rintro ⟨a, rest, rfl, rfl, fits⟩
    exact ⟨by simp, by rwa [List.drop_left]⟩

/-- A list of one-byte entries under its count byte. -/
theorem listFits_bytes_iff (most : Nat) (bs : List Byte) : listFits 1 0 most bs = true ↔
    ∃ n l, bs = n :: l ∧ l.length = n.toNat ∧ n.toNat ≤ most := by
  simp only [listFits_iff, Nat.one_mul, Nat.zero_le, true_and]

/-- OPEN HIRE: seven bytes, an optional one, and one to eight two-byte numbers (R115). -/
theorem paramsFit_openHire (bs : List Byte) : paramsFit 0x30#8 bs = true ↔ ∃ a o n l, bs = a ++ o ++ n :: l ∧
    a.length = 7 ∧ OptionalByte o ∧ 1 ≤ n.toNat ∧ n.toNat ≤ 8 ∧ l.length = 2 * n.toNat := by
  show (decide (7 ≤ bs.length) && optionalThen (listFits 2 1 8) (bs.drop 7)) = true ↔ _
  rw [Bool.and_eq_true, decide_eq_true_eq, takes_drop_iff]
  simp only [optionalThen_iff, listFits_iff]
  constructor
  · rintro ⟨a, rest, rfl, seven, o, m, rfl, optional, n, l, rfl, length, low, high⟩
    exact ⟨a, o, n, l, by rw [List.append_assoc], seven, optional, low, high, length⟩
  · rintro ⟨a, o, n, l, rfl, seven, optional, low, high, length⟩
    exact ⟨a, o ++ n :: l, by rw [List.append_assoc], seven, o, n :: l, rfl, optional, n, l, rfl, length, low, high⟩

/-- CHANGE PRESET: two bytes and an optional one (R123). -/
theorem paramsFit_changePreset (bs : List Byte) :
    paramsFit 0x34#8 bs = true ↔ ∃ a o, bs = a ++ o ∧ a.length = 2 ∧ OptionalByte o := by
  show (decide (2 ≤ bs.length) && optionalThen (fun left => left.isEmpty) (bs.drop 2)) = true ↔ _
  rw [Bool.and_eq_true, decide_eq_true_eq, takes_drop_iff]
  simp only [optionalThen_iff, List.isEmpty_iff]
  constructor
  · rintro ⟨a, rest, rfl, two, o, m, rfl, optional, rfl⟩
    exact ⟨a, o, by rw [List.append_nil], two, optional⟩
  · rintro ⟨a, o, rfl, two, optional⟩
    exact ⟨a, o, rfl, two, o, [], by rw [List.append_nil], optional, rfl⟩

/-- SET BOOTH: one byte, two optional ones and four more (R3). -/
theorem paramsFit_setBooth (bs : List Byte) : paramsFit 0x54#8 bs = true ↔ ∃ a o q b, bs = a ++ o ++ q ++ b ∧
    a.length = 1 ∧ OptionalByte o ∧ OptionalByte q ∧ b.length = 4 := by
  have long (fits : optionalThen (optionalThen fun left => left.length == 4) (bs.drop 1) = true) : 1 ≤ bs.length := by
    cases bs with
    | nil => cases fits
    | cons b l => exact Nat.succ_pos _
  show optionalThen (optionalThen fun left => left.length == 4) (bs.drop 1) = true ↔ _
  rw [← and_iff_right_of_imp long, takes_drop_iff]
  simp only [optionalThen_iff, beq_iff_eq]
  constructor
  · rintro ⟨a, rest, rfl, one, o, m, rfl, first, q, b, rfl, second, four⟩
    exact ⟨a, o, q, b, by simp only [List.append_assoc], one, first, second, four⟩
  · rintro ⟨a, o, q, b, rfl, one, first, second, four⟩
    exact ⟨a, o ++ (q ++ b), by simp only [List.append_assoc], one, o, q ++ b, rfl, first, q, b, rfl, second, four⟩

end Sys2Proof.Machine

namespace Sys2Proof.Proofs
open Sys2Proof Sys2Proof.Machine

/-- Settles O8: each check by what it decides (`exec_of_check`), and each length by the command's own fit. -/
theorem requestChecksRunInOrder : Obligations.RequestChecksRunInOrder := by
  refine ⟨fun c s p code params brings powered running idle settled => ?_, fun s p code params h unknown short => ?_,
    fun code n params h => paramsFit_of_length ?_ params, fun code most params h => ?_, fun params =>
      ⟨paramsFit_openHire params, paramsFit_changePreset params, paramsFit_setBooth params⟩⟩
  · have decided {r : Result} (check : s.portCheck p code params = some r) :=
      exec_of_check brings powered running idle settled check
    refine ⟨fun starting other => decided ?_, fun done => ⟨fun unknown => decided ?_, fun q only differs => decided ?_,
      fun accepted misfit => decided ?_⟩⟩
    · simp [State.portCheck, State.starting, starting, other]
    · rw [State.portCheck_done s p code params done, unknown]
      rfl
    · have foreign : acceptedOn code p = false := by
        unfold acceptedOn
        rw [only]
        exact beq_false_of_ne differs.symm
      rw [State.portCheck_done s p code params done, only, foreign]
      rfl
    · have known : (commandAccess code).isNone = false := by
        unfold acceptedOn at accepted
        split at accepted
        · next access => rw [access]; rfl
        · next access => rw [access]; rfl
        · cases accepted
      rw [State.portCheck_done s p code params done, known, accepted, misfit]
      rfl
  · obtain ⟨powered, running, done, idle, settled⟩ := h
    have w : (Instr.unknownCommand p code params).wellFormed = true := by
      simp [Instr.wellFormed, unknown, Instr.paramsFit, short]
    refine exec_of_check (.inl ⟨w, rfl⟩) powered running idle settled ?_
    rw [State.portCheck_done s p code params done, unknown]
    rfl
  · exact eq_of_beq ((List.all_eq_true (p := fun x : Byte × Nat => paramLength? x.1 == some x.2)).mp (by decide)
      (code, n) h)
  · simp only [List.mem_cons, Prod.mk.injEq, List.not_mem_nil, or_false] at h
    rcases h with ⟨rfl, rfl⟩ | ⟨rfl, rfl⟩
    · exact listFits_bytes_iff 19 params
    · exact listFits_bytes_iff 3 params

end Sys2Proof.Proofs
end

section
/-! SUPPORT. Scope, the derivation pass: the walk along the selections, what the rounds and the loops of R46 to R48 leave of
every program, and the pass on the state as its equations for programs, desks, keys and notices (R45 to R51). -/

namespace Sys2Proof.Machine

theorem Table.ext_get {α : Type} {n : Nat} {t u : Table α n} (h : ∀ i, t.get i = u.get i) : t = u := by
  obtain ⟨rows, size⟩ := t
  obtain ⟨rows', size'⟩ := u
  congr 1
  refine List.ext_getElem (size.trans size'.symm) fun i hi _ => ?_
  exact h ⟨i, size ▸ hi⟩

/-! ### The walk along the selections (R48) -/

/-- Program `p`'s live desk selects program `q`, as the pass reads it. -/
def Links (hs : Table Hearing 32) (p q : Prog) : Prop := hs.get p = .prog q

/-- Program `p` lies on a loop, as the pass reads the selections. -/
def Loops (hs : Table Hearing 32) (p : Prog) : Prop := Relation.TransGen (Links hs) p p

/-- The next program of the walk; a program that selects none stays where it is. -/
def nextProg (hs : Table Hearing 32) (p : Prog) : Prog :=
  match hs.get p with
  | .prog q => q
  | .off | .floor => p

/-- From a program of `P` the walk goes on, and stays in `P`. -/
def WalksIn (hs : Table Hearing 32) (P : Prog → Prop) : Prop := ∀ c, P c → ∃ q, Links hs c q ∧ P q

section walk
variable {hs : Table Hearing 32} {p q c : Prog} {P : Prog → Prop}

theorem nextProg_of_link (h : Links hs p q) : nextProg hs p = q := by
  unfold nextProg
  rw [show hs.get p = .prog q from h]

theorem loops_walksIn : WalksIn hs (Loops hs) := fun _ h =>
  let ⟨q, link, back⟩ := Relation.TransGen.head'_iff.mp h
  ⟨q, link, .tail' back link⟩

theorem WalksIn.iterate (walks : WalksIn hs P) (h : P c) (k : Nat) : P ((nextProg hs)^[k] c) := by
  induction k generalizing c with
  | zero => exact h
  | succ k ih =>
    obtain ⟨q, link, hq⟩ := walks c h
    rw [Function.iterate_succ_apply, nextProg_of_link link]
    exact ih hq

/-- Steps of the walk are links, as long as the walk goes on. -/
theorem WalksIn.transGen (walks : WalksIn hs P) (h : P c) (k : Nat) :
    Relation.TransGen (Links hs) c ((nextProg hs)^[k + 1] c) := by
  induction k generalizing c with
  | zero =>
    obtain ⟨q, link, -⟩ := walks c h
    exact .single (by rwa [Function.iterate_one, nextProg_of_link link])
  | succ k ih =>
    obtain ⟨q, link, hq⟩ := walks c h
    rw [Function.iterate_succ_apply, nextProg_of_link link]
    exact .head link (ih hq)

theorem exists_iterate_of_transGen (h : Relation.TransGen (Links hs) p q) : ∃ k, (nextProg hs)^[k + 1] p = q := by
  induction h with
  | single link => exact ⟨0, nextProg_of_link link⟩
  | tail _ link ih =>
    obtain ⟨k, rfl⟩ := ih
    exact ⟨k + 1, by rw [Function.iterate_succ_apply', nextProg_of_link link]⟩

/-- A walk that goes on for ever comes to a loop, because there are only 32 programs. -/
theorem WalksIn.exists_loop (walks : WalksIn hs P) (h : P p) : ∃ c, P c ∧ Loops hs c := by
  obtain ⟨i, j, ne, meet⟩ := Finite.exists_ne_map_eq_of_infinite fun n => (nextProg hs)^[n] p
  wlog before : i < j generalizing i j
  · exact this j i ne.symm meet.symm (by omega)
  obtain ⟨k, rfl⟩ : ∃ k, j = k + 1 + i := ⟨j - i - 1, by omega⟩
  have round := walks.transGen (walks.iterate h i) k
  rw [← Function.iterate_add_apply, ← show (nextProg hs)^[i] p = (nextProg hs)^[k + 1 + i] p from meet] at round
  exact ⟨_, walks.iterate h i, round⟩

theorem transGen_of_comesBack {fuel : Nat} (h : comesBack hs p fuel c = true) :
    Relation.TransGen (Links hs) c p := by
  induction fuel generalizing c with
  | zero => cases h
  | succ k ih =>
    unfold comesBack at h
    split at h
    · next q link =>
      rcases Bool.or_eq_true_iff.mp h with here | later
      · exact .single (eq_of_beq here ▸ link)
      · exact .head link (ih later)
    · cases h
    · cases h

theorem WalksIn.comesBack {fuel k : Nat} (walks : WalksIn hs P) (h : P c) (enough : k < fuel)
    (back : (nextProg hs)^[k + 1] c = p) : comesBack hs p fuel c = true := by
  induction fuel generalizing k c with
  | zero => omega
  | succ fuel ih =>
    obtain ⟨q, link, hq⟩ := walks c h
    rw [Function.iterate_succ_apply, nextProg_of_link link] at back
    unfold Machine.comesBack
    rw [show hs.get c = .prog q from link]
    refine Bool.or_eq_true_iff.mpr ?_
    cases k with
    | zero => exact .inl (beq_iff_eq.mpr back)
    | succ k => exact .inr (ih hq (by omega) back)

/-- The walk of R48 finds exactly the loops: one that comes back does so within 32 links. -/
theorem comesBack_iff : comesBack hs p 32 p = true ↔ Loops hs p := by
  refine ⟨transGen_of_comesBack, fun h => ?_⟩
  obtain ⟨k, back⟩ := exists_iterate_of_transGen h
  have positive : 0 < Function.minimalPeriod (nextProg hs) p :=
    Function.minimalPeriod_pos_of_mem_periodicPts (Function.mk_mem_periodicPts k.succ_pos back)
  have short : Function.minimalPeriod (nextProg hs) p ≤ 32 := Function.minimalPeriod_le_card
  refine loops_walksIn.comesBack h (k := Function.minimalPeriod (nextProg hs) p - 1) (by omega) ?_
  rw [Nat.sub_add_cancel positive, Function.iterate_minimalPeriod]

end walk

/-! ### The rounds and the loops of the pass (R46 to R48) -/

/-- What is resolved in `t` is resolved in `u` in the same way. -/
def Resolved.Grows (t u : Resolved) : Prop := ∀ p x, t.get p = some x → u.get p = some x

theorem Resolved.Grows.trans {t u v : Resolved} (h : t.Grows u) (k : u.Grows v) : t.Grows v :=
  fun p x hx => k p x (h p x hx)

/-- The programs that are not resolved. -/
def Resolved.unresolved (t : Resolved) : Finset Prog := {p | t.get p = none}

theorem Resolved.mem_unresolved {t : Resolved} {p : Prog} : p ∈ t.unresolved ↔ t.get p = none := by
  simp [Resolved.unresolved]

section passes
variable {hs : Table Hearing 32} {t : Resolved} {p q : Prog} {x : Resolution}

theorem roundOnce_grows : t.Grows (roundOnce hs t) := fun p x h => by
  rw [roundOnce, Table.get_mapIdx, h]

theorem breakLoops_grows : t.Grows (breakLoops hs t) := fun p x h => by
  rw [breakLoops, Table.get_mapIdx, h]

theorem roundOnce_of_link (h : t.get p = none) (link : Links hs p q) :
    (roundOnce hs t).get p = (t.get q).map fun y => hear y.level := by
  rw [roundOnce, Table.get_mapIdx, h, show hs.get p = .prog q from link]

theorem breakLoops_of_loop (h : t.get p = none) (loop : Loops hs p) :
    (breakLoops hs t).get p = some ⟨.direct, .broken .loop⟩ := by
  simp [breakLoops, h, comesBack_iff.mpr loop]

theorem breakLoops_of_no_loop (no : ¬ Loops hs p) : (breakLoops hs t).get p = t.get p := by
  rw [breakLoops, Table.get_mapIdx]
  cases h : t.get p with
  | some x => rfl
  | none => simp [mt comesBack_iff.mp no]

/-- What one round keeps, the rounds keep. -/
theorem rounds_induction {P : Resolved → Prop} (once : ∀ t, P t → P (roundOnce hs t)) {fuel : Nat} (h : P t) :
    P (rounds hs fuel t) := by
  induction fuel generalizing t with
  | zero => exact h
  | succ k ih =>
    unfold rounds
    dsimp only
    split
    · exact h
    · exact ih (once t h)

theorem rounds_grows {fuel : Nat} : t.Grows (rounds hs fuel t) :=
  rounds_induction (P := t.Grows) (fun _ h => h.trans roundOnce_grows) fun _ _ h => h

/-- A round that changes anything resolves a program. -/
theorem roundOnce_unresolved (h : roundOnce hs t ≠ t) : (roundOnce hs t).unresolved ⊂ t.unresolved := by
  have sub : (roundOnce hs t).unresolved ⊆ t.unresolved := fun p left => by
    rw [Resolved.mem_unresolved] at left ⊢
    refine Option.eq_none_iff_forall_ne_some.mpr fun x hx => ?_
    rw [roundOnce_grows p x hx] at left
    cases left
  refine Finset.ssubset_iff_subset_ne.mpr ⟨sub, fun same => h (Table.ext_get fun p => ?_)⟩
  cases hp : t.get p with
  | some x => exact roundOnce_grows p x hp
  | none => exact Resolved.mem_unresolved.mp (same ▸ Resolved.mem_unresolved.mpr hp)

/-- Rounds as many as the unresolved programs are enough. -/
theorem rounds_settled {fuel : Nat} (h : t.unresolved.card ≤ fuel) :
    roundOnce hs (rounds hs fuel t) = rounds hs fuel t := by
  induction fuel generalizing t with
  | zero =>
    by_contra changed
    have := Finset.card_lt_card (roundOnce_unresolved changed)
    unfold rounds at this
    omega
  | succ k ih =>
    unfold rounds
    dsimp only
    split
    · next same => exact same
    · next changed => exact ih (by have := Finset.card_lt_card (roundOnce_unresolved changed); omega)

/-- No program on a loop is resolved. -/
def LoopsOpen (hs : Table Hearing 32) (t : Resolved) : Prop := ∀ p, Loops hs p → t.get p = none

/-- Every resolved program off the loops whose live desk selects another program is resolved from that program (R47). -/
def ResolvedFrom (hs : Table Hearing 32) (t : Resolved) : Prop :=
  ∀ p q x, Links hs p q → ¬ Loops hs p → t.get p = some x → ∃ y, t.get q = some y ∧ x = hear y.level

theorem LoopsOpen.roundOnce (h : LoopsOpen hs t) : LoopsOpen hs (roundOnce hs t) := fun p loop => by
  obtain ⟨q, link, loop'⟩ := loops_walksIn p loop
  rw [roundOnce_of_link (h p loop) link, h q loop']
  rfl

theorem ResolvedFrom.roundOnce (h : ResolvedFrom hs t) : ResolvedFrom hs (roundOnce hs t) := by
  intro p q x link no hx
  cases hp : t.get p with
  | some x' =>
    obtain rfl : x' = x := Option.some.inj ((roundOnce_grows p x' hp).symm.trans hx)
    obtain ⟨y, hy, e⟩ := h p q x' link no hp
    exact ⟨y, roundOnce_grows q y hy, e⟩
  | none =>
    rw [roundOnce_of_link hp link, Option.map_eq_some_iff] at hx
    obtain ⟨y, hy, e⟩ := hx
    exact ⟨y, roundOnce_grows q y hy, e.symm⟩

theorem ResolvedFrom.breakLoops (h : ResolvedFrom hs t) : ResolvedFrom hs (breakLoops hs t) := by
  intro p q x link no hx
  rw [breakLoops_of_no_loop no] at hx
  obtain ⟨y, hy, e⟩ := h p q x link no hx
  exact ⟨y, breakLoops_grows q y hy, e⟩

theorem firstStep_of_off (h : hs.get p = .off) : (firstStep hs).get p = some ⟨.floorFallback, .ok⟩ := by
  simp [firstStep, h]

theorem firstStep_of_floor (h : hs.get p = .floor) : (firstStep hs).get p = some ⟨.direct, .ok⟩ := by
  simp [firstStep, h]

theorem firstStep_of_link (h : Links hs p q) : (firstStep hs).get p = none := by
  simp [firstStep, show hs.get p = .prog q from h]

theorem firstStep_loopsOpen : LoopsOpen hs (firstStep hs) := fun p loop =>
  let ⟨_, link, _⟩ := loops_walksIn p loop
  firstStep_of_link link

theorem firstStep_resolvedFrom : ResolvedFrom hs (firstStep hs) := fun p q x link _ hx => by
  rw [firstStep_of_link link] at hx
  cases hx

/-! ### The finished pass -/

theorem firstStep_grows_resolve : (firstStep hs).Grows (resolve hs) :=
  (rounds_grows.trans breakLoops_grows).trans rounds_grows

theorem resolve_of_off (h : hs.get p = .off) : (resolve hs).get p = some ⟨.floorFallback, .ok⟩ :=
  firstStep_grows_resolve p _ (firstStep_of_off h)

theorem resolve_of_floor (h : hs.get p = .floor) : (resolve hs).get p = some ⟨.direct, .ok⟩ :=
  firstStep_grows_resolve p _ (firstStep_of_floor h)

/-- The rounds leave the loops open, the loops are broken, and the resumed rounds keep them so (R48). -/
theorem resolve_of_loop (h : Loops hs p) : (resolve hs).get p = some ⟨.direct, .broken .loop⟩ := by
  have left : LoopsOpen hs (rounds hs 32 (firstStep hs)) :=
    rounds_induction (P := LoopsOpen hs) (fun _ => LoopsOpen.roundOnce) firstStep_loopsOpen
  exact rounds_grows p _ (breakLoops_of_loop (left p h) h)

theorem resolve_resolvedFrom : ResolvedFrom hs (resolve hs) :=
  have once : ∀ t, ResolvedFrom hs t → ResolvedFrom hs (roundOnce hs t) := fun _ => ResolvedFrom.roundOnce
  rounds_induction once (rounds_induction once firstStep_resolvedFrom).breakLoops

theorem resolve_settled : roundOnce hs (resolve hs) = resolve hs :=
  rounds_settled ((Finset.card_le_univ _).trans_eq (Fintype.card_fin 32))

/-- A program left unresolved selects another one. -/
theorem unresolved_walksIn : WalksIn hs fun p => (resolve hs).get p = none := by
  intro p (left : (resolve hs).get p = none)
  cases heard : hs.get p with
  | off => rw [resolve_of_off heard] at left; cases left
  | floor => rw [resolve_of_floor heard] at left; cases left
  | prog q =>
    have same := roundOnce_of_link left heard
    rw [resolve_settled, left] at same
    exact ⟨q, heard, Option.map_eq_none_iff.mp same.symm⟩

/-- The pass resolves every program: the walk from an unresolved one would come to an unresolved loop (R48). -/
theorem resolve_total (hs : Table Hearing 32) (p : Prog) : ∃ x, (resolve hs).get p = some x := by
  refine Option.ne_none_iff_exists'.mp fun left => ?_
  obtain ⟨c, left', loop⟩ := unresolved_walksIn.exists_loop left
  rw [resolve_of_loop loop] at left'
  cases left'

/-- A program off the loops is resolved from the level of the program that its live desk selects (R47). -/
theorem resolve_of_link (link : Links hs p q) (no : ¬ Loops hs p) :
    (resolve hs).get p = some (hear ((resolve hs).level q)) := by
  obtain ⟨x, hx⟩ := resolve_total hs p
  obtain ⟨y, hy, rfl⟩ := resolve_resolvedFrom p q x link no hx
  rw [hx, Resolved.level, hy]

end passes

/-! ### What the pass reads (R46, R48) -/

section reads
variable {s : State} {p q : Prog} {d : DeskId}

/-- Every program as the pass resolves it (R46 to R48). -/
def State.resolved (s : State) : Resolved := resolve (.ofFn s.hearing)

theorem State.hears_of_none (h : (s.program p).liveDesk = none) : (Table.ofFn s.hearing).get p = .off := by
  rw [Table.get_ofFn, State.hearing, h]

theorem State.hears_of_live (h : (s.program p).liveDesk = some d) :
    (Table.ofFn s.hearing).get p = hearingOf (s.desk d).selected := by
  rw [Table.get_ofFn, State.hearing, h]

theorem State.listensTo_iff (h : (s.program p).liveDesk = some d) :
    s.listensTo p q ↔ (s.desk d).selected = q ∧ q ≠ 0 := by
  simp [State.listensTo, h]

theorem State.links_eq (s : State) : Links (.ofFn s.hearing) = s.listensTo := by
  funext p q
  refine propext ?_
  cases h : (s.program p).liveDesk with
  | none => simp [Links, State.listensTo, State.hears_of_none h, h]
  | some d =>
    rw [State.listensTo_iff h, Links, State.hears_of_live h, hearingOf]
    split
    · next floor => simp only [reduceCtorEq, floor, false_iff, not_and, not_not]; exact Eq.symm
    · next source => exact ⟨fun e => by cases e; exact ⟨rfl, source⟩, fun e => by rw [e.1]⟩

theorem State.loops_iff : Loops (.ofFn s.hearing) p ↔ s.onLoop p := by
  rw [Loops, State.links_eq, State.onLoop]

theorem Resolved.level_of_get {t : Resolved} {x : Resolution} (h : t.get p = some x) : t.level p = x.level := by
  rw [Resolved.level, h]

theorem State.resolved_of_none (h : (s.program p).liveDesk = none) :
    s.resolved.get p = some ⟨.floorFallback, .ok⟩ := resolve_of_off (State.hears_of_none h)

theorem State.resolved_of_loop (h : s.onLoop p) : s.resolved.get p = some ⟨.direct, .broken .loop⟩ :=
  resolve_of_loop (State.loops_iff.mpr h)

section live
variable (live : (s.program p).liveDesk = some d)
include live

theorem State.resolved_of_floor (floor : (s.desk d).selected = 0) : s.resolved.get p = some ⟨.direct, .ok⟩ :=
  resolve_of_floor ((State.hears_of_live live).trans (if_pos floor))

theorem State.resolved_of_source (source : (s.desk d).selected ≠ 0) (no : ¬ s.onLoop p) :
    s.resolved.get p = some (hear (s.resolved.level (s.desk d).selected)) :=
  resolve_of_link ((State.hears_of_live live).trans (if_neg source)) (mt State.loops_iff.mp no)

end live

/-- Level 0 is the level of the programs with no live desk, and of no other (R46, R47). -/
theorem State.resolved_floorFallback_iff :
    s.resolved.level p = .floorFallback ↔ (s.program p).liveDesk = none := by
  cases live : (s.program p).liveDesk with
  | none => simp [Resolved.level_of_get (State.resolved_of_none live)]
  | some d =>
    simp only [reduceCtorEq, iff_false]
    by_cases floor : (s.desk d).selected = 0
    · rw [Resolved.level_of_get (State.resolved_of_floor live floor)]
      nofun
    by_cases loop : s.onLoop p
    · rw [Resolved.level_of_get (State.resolved_of_loop loop)]
      nofun
    · rw [Resolved.level_of_get (State.resolved_of_source live floor loop)]
      cases s.resolved.level (s.desk d).selected <;> nofun

end reads

/-! ### What the pass leaves in the programs and the desks (R46 to R49) -/

/-- The relay status that a desk gets from the level of the program it selects: broken above a second relay (R47, R49). -/
theorem offAirRelay_eq (t : Resolved) (src : Source) :
    offAirRelay t src = if src ≠ 0 ∧ t.level src = .secondRelay then .broken .depth else .ok := by
  unfold offAirRelay
  by_cases floor : src = 0
  · simp [floor]
  · simp [floor]

theorem hear_relay_eq (l : Level) : (hear l).relay = if l = .secondRelay then .broken .depth else .ok := by
  cases l <;> rfl

theorem feedOf_eq (r : Relay) (src : Source) : feedOf r src = if r = .ok then src else 0 := by
  cases r <;> rfl

section leaves
variable {s : State} {p : Prog} {d : DeskId}

theorem State.derivationPass_program_eq (s : State) (p : Prog) : s.derivationPass.program p =
    { s.program p with derivedSource := (s.program p).liveDesk, level := s.resolved.level p } := by
  unfold State.program
  rw [State.derivationPass_programs, Table.get_mapIdx]
  rfl

theorem State.derivationPass_level (s : State) (p : Prog) :
    (s.derivationPass.program p).level = s.resolved.level p := by
  rw [State.derivationPass_program_eq]

/-- The relay status reads of the programs their live desks alone, which the pass leaves. -/
theorem State.derivationPass_desk_eq (s : State) (d : DeskId) : s.derivationPass.desk d =
    { s.desk d with
      relay := s.passRelay s.resolved d
      feed := feedOf (s.passRelay s.resolved d) (s.desk d).selected } := by
  have relay : ({ s with programs := s.derivationPass.programs } : State).passRelay s.resolved d =
      s.passRelay s.resolved d := by
    have links (p : Prog) : (s.derivationPass.programs.get p).liveDesk = (s.programs.get p).liveDesk :=
      congrArg (f := fun r => r.liveDesk) (s.derivationPass_program_eq p)
    unfold State.passRelay State.deskProgram State.program
    simp only [links]
    rfl
  rw [← relay]
  unfold State.desk
  rw [State.derivationPass_desks, Table.get_mapIdx, deskAt_idx]
  rfl

theorem State.derivationPass_relay (s : State) (d : DeskId) :
    (s.derivationPass.desk d).relay = s.passRelay s.resolved d := by
  rw [State.derivationPass_desk_eq]

theorem State.derivationPass_feed (s : State) (d : DeskId) : (s.derivationPass.desk d).feed =
    if (s.derivationPass.desk d).relay = .ok then (s.desk d).selected else 0 := by
  rw [State.derivationPass_desk_eq, ← feedOf_eq]

/-- A desk on the air takes the relay status with which its program is resolved (R46 to R48). -/
theorem State.passRelay_of_holder {t : Resolved} {x : Resolution} (live : (s.program p).liveDesk = some d)
    (held : s.deskProgram d = some p) (h : t.get p = some x) : s.passRelay t d = x.relay := by
  obtain ⟨id, o, state, -⟩ := State.live_of_deskProgram held
  simp only [State.passRelay, state, held, live, h, if_true]

theorem State.passRelay_of_offAir {t : Resolved} (off : (s.desk d).state.isLive = false) :
    s.passRelay t d = offAirRelay t (s.desk d).selected := by
  unfold State.passRelay
  cases state : (s.desk d).state with
  | vacant => rfl
  | ready id => rfl
  | live id o => rw [state] at off; cases off

theorem State.derivationPass_relay_of_offAir (off : (s.desk d).state.isLive = false) :
    (s.derivationPass.desk d).relay =
      if (s.desk d).selected ≠ 0 ∧ (s.derivationPass.program (s.desk d).selected).level = .secondRelay
      then .broken .depth else .ok := by
  rw [State.derivationPass_relay, State.passRelay_of_offAir off, offAirRelay_eq, State.derivationPass_level]

section holder
variable (live : (s.program p).liveDesk = some d) (held : s.deskProgram d = some p)
include live held

theorem State.derivationPass_relay_of_loop (loop : s.onLoop p) :
    (s.derivationPass.desk d).relay = .broken .loop := by
  rw [State.derivationPass_relay, State.passRelay_of_holder live held (State.resolved_of_loop loop)]

theorem State.derivationPass_relay_of_holder (no : ¬ s.onLoop p) :
    (s.derivationPass.desk d).relay =
      if (s.desk d).selected ≠ 0 ∧ (s.derivationPass.program (s.desk d).selected).level = .secondRelay
      then .broken .depth else .ok := by
  rw [State.derivationPass_relay, State.derivationPass_level]
  by_cases floor : (s.desk d).selected = 0
  · rw [State.passRelay_of_holder live held (State.resolved_of_floor live floor)]
    simp [floor]
  · rw [State.passRelay_of_holder live held (State.resolved_of_source live floor no), hear_relay_eq]
    simp [floor]

end holder

/-- No desk hears a second relay (R47, R49): above one, a desk is broken and hears floor. -/
theorem State.derivationPass_feed_level (link : ∀ p, s.deskProgram d = some p → (s.program p).liveDesk = some d)
    (holds : (s.desk d).state.isLive = true → s.deskProgram d ≠ none) (source : (s.derivationPass.desk d).feed ≠ 0) :
    (s.derivationPass.program (s.derivationPass.desk d).feed).level ≠ .secondRelay := by
  rw [State.derivationPass_feed] at source ⊢
  split at source
  · next ok =>
    rw [if_pos ok]
    intro second
    have broken : (s.derivationPass.desk d).relay = .broken .loop ∨ (s.derivationPass.desk d).relay = .broken .depth := by
      cases state : (s.desk d).state.isLive with
      | false => exact .inr ((State.derivationPass_relay_of_offAir state).trans (if_pos ⟨source, second⟩))
      | true =>
        obtain ⟨p, held⟩ := Option.ne_none_iff_exists'.mp (holds state)
        by_cases loop : s.onLoop p
        · exact .inl (State.derivationPass_relay_of_loop (link p held) held loop)
        · exact .inr ((State.derivationPass_relay_of_holder (link p held) held loop).trans (if_pos ⟨source, second⟩))
    rw [ok] at broken
    exact broken.elim nofun nofun
  · exact absurd rfl source

end leaves

/-! ### What the pass hands on (R50, R51) -/

/-- The link with the keys of what a pass has changed set, from the tables that it leaves (R51). -/
def State.passKeys (s : State) (programs : Table Program 32) (desks : Table Desk 72) : Link :=
  { s.link with
    programKeys := s.link.programKeys.mapIdx fun p k =>
      k || (programs.get p).derivedSource != (s.program p).derivedSource || (programs.get p).level != (s.program p).level
    deskKeys := s.link.deskKeys.mapIdx fun i k => k || (desks.get i).feed != (s.booth.desks.get i).feed }

/-- The state that a pass leaves but for its notices, from the tables that it leaves. -/
def State.passTables (s : State) (programs : Table Program 32) (desks : Table Desk 72) : State :=
  ({ s with programs := programs, booth := { s.booth with desks := desks } } : State).updateLink
    fun _ => s.passKeys programs desks

/-- A pass writes its tables and its keys, and then queues its notices (R50, R51). -/
theorem State.derivationPass_eq (s : State) : s.derivationPass =
    (s.passTables s.derivationPass.programs s.derivationPass.booth.desks).relayNotices s.booth.desks
      s.derivationPass.booth.desks := by
  obtain ⟨programs, desks, pass⟩ : ∃ programs desks,
      s.derivationPass = (s.passTables programs desks).relayNotices s.booth.desks desks := ⟨_, _, rfl⟩
  have reports := (s.passTables programs desks).relayNotices_reports s.booth.desks desks
  rw [← pass] at reports
  have programs' : s.derivationPass.programs = programs := by rw [show s.derivationPass = _ from reports]; rfl
  have desks' : s.derivationPass.booth.desks = desks := by rw [show s.derivationPass = _ from reports]; rfl
  rw [programs', desks']
  exact pass

theorem State.derivationPass_link (s : State) : s.derivationPass.link =
    (s.passKeys s.derivationPass.programs s.derivationPass.booth.desks).watched s.now := by
  have reports := (s.passTables s.derivationPass.programs s.derivationPass.booth.desks).relayNotices_reports
    s.booth.desks s.derivationPass.booth.desks
  rw [← State.derivationPass_eq] at reports
  rw [show s.derivationPass = _ from reports]
  rfl

/-- The pass sets the key of each program whose derived source or level it changes (R51). -/
theorem State.derivationPass_programKeys (s : State) (p : Prog) : s.derivationPass.link.programKeys.get p =
    (s.link.programKeys.get p || decide ((s.program p).liveDesk ≠ (s.program p).derivedSource ∨
      (s.derivationPass.program p).level ≠ (s.program p).level)) := by
  have source : (s.derivationPass.programs.get p).derivedSource = (s.program p).liveDesk :=
    congrArg Program.derivedSource (s.derivationPass_program_eq p)
  rw [State.derivationPass_link, Link.watched_eq]
  show (s.link.programKeys.mapIdx _).get p = _
  rw [Table.get_mapIdx, source, Bool.or_assoc, Bool.decide_or]
  simp only [bne, ne_eq, decide_not, beq_eq_decide]
  rfl

/-- The pass sets the key of each desk whose feed it changes (R51). -/
theorem State.derivationPass_deskKeys (s : State) (d : DeskId) : s.derivationPass.link.deskKeys.get d.idx =
    (s.link.deskKeys.get d.idx || decide ((s.derivationPass.desk d).feed ≠ (s.desk d).feed)) := by
  rw [State.derivationPass_link, Link.watched_eq]
  show (s.link.deskKeys.mapIdx _).get d.idx = _
  rw [Table.get_mapIdx]
  simp only [bne, ne_eq, decide_not, beq_eq_decide]
  rfl

/-- The link after a pass: its keys, and the stall watch that they run (R51, R88). -/
theorem State.derivationPass_link_eq (s : State) : s.derivationPass.link = { s.link with
    programKeys := s.derivationPass.link.programKeys
    deskKeys := s.derivationPass.link.deskKeys
    stallSince := if s.link.phase = .idle ∧ s.derivationPass.link.anyPending = true ∧ s.link.ready = false
      then some (s.link.stallSince.getD s.now) else none } := by
  rw [State.derivationPass_link, Link.watched_eq]
  rfl

/-- The notices of a pass, desk by desk (R50). -/
theorem State.derivationPass_relayNotices (s : State) : s.derivationPass =
    ({ s with
      programs := s.derivationPass.programs
      booth := { s.booth with desks := s.derivationPass.booth.desks }
      link := s.derivationPass.link } : State).relayNotices s.booth.desks s.derivationPass.booth.desks := by
  rw [State.derivationPass_link]
  exact s.derivationPass_eq

/-- The notice at a place of the table is the notice of its desk (R50). -/
theorem State.relayNotice_deskAt (s t v : State) (i : Fin 72) :
    v.relayNotice (deskAt i) (s.booth.desks.get i).relay (t.booth.desks.get i) =
      v.relayNotice (deskAt i) (s.desk (deskAt i)).relay (t.desk (deskAt i)) := by
  rw [State.desk, State.desk, idx_deskAt]

end Sys2Proof.Machine

namespace Sys2Proof.Proofs
open Sys2Proof Sys2Proof.Machine

/-- Settles O34: every level by how the pass resolves the program (`State.resolved_of_floor`, `State.resolved_of_loop`,
`State.resolved_of_source`), every desk by `State.derivationPass_desk_eq`, and the keys and the notices by
`State.derivationPass_eq`. -/
theorem theDerivationPassResolvesEveryLevel : Obligations.TheDerivationPassResolvesEveryLevel := by
  rintro s t rfl
  refine ⟨fun p => ⟨by rw [State.derivationPass_program_eq], ?_⟩, fun p d live floor => ?_,
    fun p d live source => ⟨fun loop => ?_, fun no => ?_⟩,
    fun p d live held => ⟨State.derivationPass_relay_of_loop live held, State.derivationPass_relay_of_holder live held⟩,
    fun d => State.derivationPass_relay_of_offAir, s.derivationPass_feed, fun d => State.derivationPass_feed_level,
    fun p => by rw [State.derivationPass_program_eq], fun d => by rw [State.derivationPass_desk_eq],
    s.derivationPass_programKeys, s.derivationPass_deskKeys, s.derivationPass_link_eq, ?_⟩
  · rw [State.derivationPass_level]
    exact State.resolved_floorFallback_iff
  · rw [State.derivationPass_level, Resolved.level_of_get (State.resolved_of_floor live floor)]
  · rw [State.derivationPass_level, Resolved.level_of_get (State.resolved_of_loop loop)]
  · rw [State.derivationPass_level, State.derivationPass_level,
      Resolved.level_of_get (State.resolved_of_source live source no)]
    cases s.resolved.level (s.desk d).selected <;> rfl
  · refine s.derivationPass_relayNotices.trans ?_
    unfold State.relayNotices
    congr 1
    funext v i
    have selected : (s.derivationPass.desk (deskAt i)).selected = (s.desk (deskAt i)).selected := by
      rw [State.derivationPass_desk_eq]
    rw [State.relayNotice_deskAt]
    unfold State.relayNotice
    rw [selected]
    cases (s.desk (deskAt i)).relay with
    | ok =>
      cases (s.derivationPass.desk (deskAt i)).relay with
      | ok => rfl
      | broken c => cases c <;> rfl
    | broken c =>
      cases (s.derivationPass.desk (deskAt i)).relay with
      | ok => rfl
      | broken c' => rfl

end Sys2Proof.Proofs
end

section
/-! SUPPORT. Scope, SELECT SOURCE (R42, R43): its parameters as read from bytes, its checks in their order, and its answer from
what the pass resolves. -/

namespace Sys2Proof.Machine

theorem selectParams?_bytes (d : DeskId) (src : Source) :
    selectParams? (deskBytes d ++ be 1 src.val) = some (d, src) := by
  rw [deskBytes_eq, be_one]
  simp [selectParams?, desk?_bytes, prog?_byte]

/-- SELECT SOURCE by what its body does (R42). -/
theorem exec_selectSource {s : State} {d : DeskId} {src : Source} {f : State → State} {r : Result} {fields : List Byte}
    (h : s.canTake .booth) (hf : State.Apart f)
    (hb : ∀ l, selectSource d src (s.taken .booth 0x15#8 l) = ⟨f (s.taken .booth 0x15#8 l), r, fields⟩) :
    exec (.selectSource .booth (deskBytes d ++ be 1 src.val)) s = .next (f (s.answered .booth 0x15#8 r fields)) :=
  exec_of_apart h (by simp [deskBytes, be]) rfl rfl (selectParams?_bytes d src) hf (hb _)

/-! ### The checks (R42) -/

section checks
variable {s : State} {d : DeskId} {src : Source}

theorem selectSource_noInterpreter (vacant : (s.desk d).state = .vacant) :
    selectSource d src s = ⟨s, .noInterpreter, []⟩ := if_pos vacant

variable (seated : (s.desk d).state ≠ .vacant)
include seated

theorem selectSource_ownOutput (source : src ≠ 0) (own : (s.boothConfig d.booth).outputs.names src = true) :
    selectSource d src s = ⟨s, .ownOutput, []⟩ := by
  unfold selectSource
  rw [if_neg seated, if_pos ⟨source, own⟩]
  rfl

theorem selectSource_notConfigured (source : src ≠ 0) (other : ¬ (s.boothConfig d.booth).outputs.names src = true)
    (no : (s.program src).config.configured = false) : selectSource d src s = ⟨s, .notConfigured, []⟩ := by
  unfold selectSource
  rw [if_neg seated, if_neg fun own => other own.2, if_pos ⟨source, by rw [no]; nofun⟩]
  rfl

theorem selectSource_ok (free : src = 0 ∨ ¬ (s.boothConfig d.booth).outputs.names src = true ∧
      (s.program src).config.configured = true) :
    selectSource d src s = ((s.modifyDesk d fun r => { r with selected := src }).derivationPass).selectAnswer d := by
  unfold selectSource
  rcases free with floor | ⟨other, configured⟩
  · rw [if_neg seated, if_neg fun own => own.1 floor, if_neg fun no => no.1 floor]
  · rw [if_neg seated, if_neg fun own => other own.2, if_neg fun no => no.2 configured]

end checks

/-! ### The answer (R43) -/

/-- A derivation pass goes the same way whatever stands in the ports. -/
theorem State.Reports.derivationPass {s t : State} (h : s.Reports t) : s.derivationPass.Reports t.derivationPass := by
  rw [show t = _ from h]
  unfold State.derivationPass
  refine (State.relayNotices_reports ..).symm.trans (.trans ?_ (State.relayNotices_reports ..))
  rfl

/-- The answer of a SELECT SOURCE reads nothing of the ports (R43). -/
theorem State.Reports.selectAnswer {s t : State} (h : s.Reports t) (d : DeskId) : t.selectAnswer d = ⟨t, .ok,
    s.feedBytes d ++ optProgBytes (s.deskProgram d)
      ++ optBytes 1 ((s.deskProgram d).map fun p => (s.program p).level.code)⟩ := by
  simp only [State.selectAnswer, State.feedBytes, h.desk, h.deskProgram, h.program]

theorem State.deskProgram_congr {s t : State} {d : DeskId} (state : (t.desk d).state = (s.desk d).state)
    (config : t.boothConfig d.booth = s.boothConfig d.booth) : t.deskProgram d = s.deskProgram d := by
  unfold State.deskProgram
  rw [state]
  simp only [config]

section select
variable (s : State) (d : DeskId) (src : Source)

/-- The desk's new selection, before the pass (R42). -/
def State.select : State := s.modifyDesk d fun r => { r with selected := src }

theorem State.select_apart : State.Apart fun s => s.select d src := State.modifyDesk_apart d _

theorem State.select_blind : State.Blind fun s => s.select d src := State.Blind.id.modifyDesk

theorem State.select_desk : (s.select d src).desk d = { s.desk d with selected := src } := by
  rw [State.select, State.modifyDesk_desk, if_pos rfl]

/-- Neither the selection nor the pass moves the desk's program (R6). -/
theorem State.select_derivationPass_deskProgram : (s.select d src).derivationPass.deskProgram d = s.deskProgram d := by
  refine State.deskProgram_congr ?_ ?_
  · rw [State.derivationPass_desk_eq, State.select_desk]
  · rw [State.derivationPass_frame]
    rfl

theorem State.select_derivationPass_feedBytes : (s.select d src).derivationPass.feedBytes d =
    be 1 src.val ++ be 1 ((s.select d src).derivationPass.desk d).feed.val
      ++ relayBytes ((s.select d src).derivationPass.desk d).relay := by
  have selected : ((s.select d src).derivationPass.desk d).selected = src := by
    rw [State.derivationPass_desk_eq, State.select_desk]
  rw [State.feedBytes, selected]

end select

end Sys2Proof.Machine

namespace Sys2Proof.Proofs
open Sys2Proof Sys2Proof.Machine

/-- Settles O33: each check by the body's own equation, and the answer as the pass resolves it whatever stands in the ports
(`State.Reports.derivationPass`, `State.Reports.selectAnswer`). -/
theorem selectSourceRunsThePass : Obligations.SelectSourceRunsThePass := by
  intro s d src h
  refine ⟨fun vacant => ?_, fun seated => ⟨fun source own => ?_, fun source a b no => ?_, fun free u hu => ?_⟩⟩
  · exact exec_selectSource h State.Apart.id fun l => selectSource_noInterpreter (by rwa [State.taken_desk])
  · exact exec_selectSource h State.Apart.id fun l => selectSource_ownOutput (by rwa [State.taken_desk]) source
      (by rwa [State.taken_boothConfig, Outputs.names_iff])
  · exact exec_selectSource h State.Apart.id fun l => selectSource_notConfigured (by rwa [State.taken_desk]) source
      (by rw [State.taken_boothConfig, Outputs.names_iff, not_or]; exact ⟨a, b⟩) (by rwa [State.taken_program])
  · subst hu
    refine exec_selectSource h (State.select_apart d src).derivationPass fun l => ?_
    have blind := (State.select_blind d src (s.taken_of_reports .booth 0x15#8 l)).derivationPass
    rw [selectSource_ok (by rwa [State.taken_desk]) (by
      rwa [State.taken_boothConfig, State.taken_program, Outputs.names_iff, not_or, and_assoc])]
    refine (blind.selectAnswer d).trans ?_
    rw [State.select_derivationPass_deskProgram, State.select_derivationPass_feedBytes]
    rfl

end Sys2Proof.Proofs
end

section
/-! SUPPORT. Scope, the allocation pass (R73 to R75): the moves of its classes stand in one order, and the pass makes an
initial segment of them. `Lowered` says so of a carriage, every step keeps it (`Lowered.apply`), and what the pass decides
is read off it. -/

namespace Sys2Proof.Machine

/-! ### The order within a class (R74) -/

section order
variable {programs : Table Program 32}

/-- Program `p` gives way before `q`: it has the smaller demand, or the higher number of equal demands (R74). -/
def GivesWay (programs : Table Program 32) (p q : Prog) : Prop :=
  (programs.get p).demand < (programs.get q).demand ∨ ((programs.get p).demand = (programs.get q).demand ∧ q < p)

theorem GivesWay.irrefl (p : Prog) : ¬ GivesWay programs p p := by
  simp [GivesWay]

theorem GivesWay.trans {p q r : Prog} (h : GivesWay programs p q) (k : GivesWay programs q r) : GivesWay programs p r := by
  unfold GivesWay at *
  grind

theorem GivesWay.asymm {p q : Prog} (h : GivesWay programs p q) : ¬ GivesWay programs q p :=
  fun k => GivesWay.irrefl p (h.trans k)

theorem GivesWay.of_ne {p q : Prog} (h : p ≠ q) (k : ¬ GivesWay programs q p) : GivesWay programs p q := by
  unfold GivesWay at *
  grind

/-- The fold of `better` over ascending candidates ends in one that gives way before every other. -/
theorem foldl_better_eq_some {b : Prog} {l : List Prog} (asc : (b :: l).Pairwise (· < ·)) :
    ∃ p ∈ b :: l, l.foldl (better programs) (some b) = some p ∧ ∀ q ∈ b :: l, q ≠ p → GivesWay programs p q := by
  induction l generalizing b with
  | nil => exact ⟨b, List.mem_singleton_self b, rfl, fun q hq ne => absurd (List.mem_singleton.mp hq) ne⟩
  | cons a rest ih =>
    obtain ⟨hb, asc'⟩ := List.pairwise_cons.mp asc
    by_cases smaller : (programs.get a).demand ≤ (programs.get b).demand
    · obtain ⟨p, hp, fold, first⟩ := ih asc'
      have beats : GivesWay programs a b :=
        (Nat.lt_or_eq_of_le smaller).imp_right fun same => ⟨same, hb a (List.mem_cons_self ..)⟩
      refine ⟨p, List.mem_cons_of_mem _ hp, ?_, fun q hq ne => ?_⟩
      · rw [List.foldl_cons, better, if_pos smaller, fold]
      · rcases List.mem_cons.mp hq with rfl | hq
        · by_cases same : p = a
          · exact same ▸ beats
          · exact (first a (List.mem_cons_self ..) (Ne.symm same)).trans beats
        · exact first q hq ne
    · have asc'' : (b :: rest).Pairwise (· < ·) :=
        List.pairwise_cons.mpr ⟨fun q hq => hb q (List.mem_cons_of_mem _ hq), (List.pairwise_cons.mp asc').2⟩
      obtain ⟨p, hp, fold, first⟩ := ih asc''
      have beats : GivesWay programs b a := .inl (Nat.not_le.mp smaller)
      refine ⟨p, List.mem_cons.mpr ((List.mem_cons.mp hp).imp_right (List.mem_cons_of_mem _)), ?_, fun q hq ne => ?_⟩
      · rw [List.foldl_cons, better, if_neg smaller, fold]
      · rcases List.mem_cons.mp hq with rfl | hq
        · exact first q (List.mem_cons_self ..) ne
        · rcases List.mem_cons.mp hq with rfl | hq
          · by_cases same : p = b
            · exact same ▸ beats
            · exact (first b (List.mem_cons_self ..) (Ne.symm same)).trans beats
          · exact first q (List.mem_cons_of_mem _ hq) ne

variable {c : Carriage} {k : PassClass}

theorem finRange_filter_ascending {n : Nat} (f : Fin n → Bool) : ((List.finRange n).filter f).Pairwise (· < ·) :=
  (List.pairwise_lt_finRange n).filter f

/-- The program that a class takes is its candidate that gives way before every other (R74). -/
theorem pick_eq_some {p : Prog} (h : pick programs c k = some p) :
    isCandidate programs c k p = true ∧ ∀ q, isCandidate programs c k q = true → q ≠ p → GivesWay programs p q := by
  have asc := finRange_filter_ascending (isCandidate programs c k)
  have mem (q : Prog) : q ∈ (List.finRange 32).filter (isCandidate programs c k) ↔ isCandidate programs c k q = true := by
    simp
  unfold pick at h
  cases candidates : (List.finRange 32).filter (isCandidate programs c k) with
  | nil => rw [candidates] at h; cases h
  | cons b l =>
    rw [candidates] at h asc
    obtain ⟨q, hq, fold, first⟩ := foldl_better_eq_some asc (programs := programs)
    have taken : q = p := Option.some.inj (fold.symm.trans h)
    subst taken
    exact ⟨(mem q).mp (candidates ▸ hq), fun r hr => first r (candidates ▸ (mem r).mpr hr)⟩

theorem pick_eq_none (h : pick programs c k = none) (p : Prog) : ¬ isCandidate programs c k p = true := by
  have asc := finRange_filter_ascending (isCandidate programs c k)
  intro hp
  unfold pick at h
  cases candidates : (List.finRange 32).filter (isCandidate programs c k) with
  | nil => exact List.filter_eq_nil_iff.mp candidates p (List.mem_finRange p) hp
  | cons b l =>
    rw [candidates] at h asc
    obtain ⟨q, -, fold, -⟩ := foldl_better_eq_some asc (programs := programs)
    exact Option.some_ne_none q (fold.symm.trans h)

end order

/-! ### The moves of the classes (R73) -/

/-- A class's place among the five. -/
def PassClass.place (k : PassClass) : Nat := passClasses.idxOf k

/-- A class sheds after the demoting class of its priority, and both are of one priority (R73). -/
theorem PassClass.demoting_before : ∀ k ∈ passClasses, k.demotes = false →
    (⟨k.priority, true⟩ : PassClass) ∈ passClasses ∧ (⟨k.priority, true⟩ : PassClass).place < k.place := by decide

/-- The LOW classes stand before the others, and the HIGH ones before the CRITICAL one (R73). -/
theorem PassClass.priority_before : ∀ j ∈ passClasses, ∀ k ∈ passClasses,
    (j.priority = .low ∧ k.priority ≠ .low) ∨ (j.priority = .high ∧ k.priority = .critical) → j.place < k.place := by decide

/-- No class sheds a CRITICAL program (R73). -/
theorem PassClass.critical_demotes : ∀ k ∈ passClasses, k.priority = .critical → k.demotes = true := by decide

theorem PassClass.demoting_mem (x : Priority) : (⟨x, true⟩ : PassClass) ∈ passClasses := by cases x <;> decide

theorem PassClass.shedding_mem {x : Priority} (h : x ≠ .critical) : (⟨x, false⟩ : PassClass) ∈ passClasses := by
  cases x with
  | critical => exact absurd rfl h
  | high => decide
  | low => decide

/-- A class has a move on program `p`: the program is configured, of the class's priority, and, to be demoted, wanted at
HIGH (R73). -/
structure PassClass.MovesOn (k : PassClass) (programs : Table Program 32) (p : Prog) : Prop where
  configured : (programs.get p).config.configured = true
  priority : (programs.get p).config.priority = k.priority
  quality : k.demotes = true → (programs.get p).config.quality = .high

/-- A class's move on program `p` has been made: the program is no longer at HIGH, or is not carried. -/
def PassClass.Made (k : PassClass) (c : Carriage) (p : Prog) : Prop :=
  if k.demotes then c.get p ≠ some .high else c.get p = none

theorem PassClass.made_demoting {x : Priority} {c : Carriage} {p : Prog} :
    (⟨x, true⟩ : PassClass).Made c p ↔ c.get p ≠ some .high := Iff.rfl

theorem PassClass.made_shedding {x : Priority} {c : Carriage} {p : Prog} :
    (⟨x, false⟩ : PassClass).Made c p ↔ c.get p = none := Iff.rfl

/-- The order of the moves: by class, and within a class as programs give way (R73, R74). -/
def MovesBefore (programs : Table Program 32) (j : PassClass) (p : Prog) (k : PassClass) (q : Prog) : Prop :=
  j.place < k.place ∨ (j = k ∧ GivesWay programs p q)

theorem PassClass.apply_get (k : PassClass) (c : Carriage) (p q : Prog) :
    (k.apply c p).get q = if q = p then (if k.demotes then some .standard else none) else c.get q := by
  unfold PassClass.apply
  by_cases e : q = p
  · rw [e, Table.get_set_same, if_pos rfl]
  · rw [Table.get_set_other _ _ _ _ (Ne.symm e), if_neg e]

/-- What the pass has made of the desired carriage: moves of the classes, in their order and with none left out. -/
structure Lowered (programs : Table Program 32) (c : Carriage) : Prop where
  unconfigured : ∀ p, (programs.get p).config.configured = false → c.get p = none
  quality : ∀ p, c.get p = some .high → (programs.get p).config.quality = .high
  critical : ∀ p, (programs.get p).config.configured = true → (programs.get p).config.priority = .critical → c.get p ≠ none
  ordered : ∀ j ∈ passClasses, ∀ k ∈ passClasses, ∀ p q, j.MovesOn programs p → k.MovesOn programs q →
    MovesBefore programs j p k q → k.Made c q → j.Made c p

theorem startCarriage_get (programs : Table Program 32) (p : Prog) : (startCarriage programs).get p =
    if (programs.get p).config.configured then some (programs.get p).config.quality else none := by
  rw [startCarriage, Table.get_map]

/-- At the start no move has been made (R73). -/
theorem lowered_startCarriage (programs : Table Program 32) : Lowered programs (startCarriage programs) where
  unconfigured p h := by rw [startCarriage_get, if_neg (by simp [h])]
  quality p h := by
    rw [startCarriage_get] at h
    split at h
    · exact Option.some.inj h
    · cases h
  critical p h _ := by rw [startCarriage_get, if_pos h]; exact Option.some_ne_none _
  ordered j _ k _ p q _ hq _ made := by
    have start : (startCarriage programs).get q = some (programs.get q).config.quality := by
      rw [startCarriage_get, if_pos hq.configured]
    unfold PassClass.Made at made
    rw [start] at made
    split at made
    · next demotes => rw [hq.quality demotes] at made; exact absurd rfl made
    · cases made

section lowered
variable {programs : Table Program 32} {c : Carriage} (h : Lowered programs c)
include h

theorem Lowered.configured {p : Prog} {q : Quality} (hp : c.get p = some q) :
    (programs.get p).config.configured = true := by
  by_contra no
  rw [h.unconfigured p (Bool.not_eq_true _ ▸ no)] at hp
  cases hp

/-- A class's candidates are the programs on which it has a move that is not made yet (R73). -/
theorem Lowered.isCandidate_iff {k : PassClass} {p : Prog} :
    isCandidate programs c k p = true ↔ k.MovesOn programs p ∧ ¬ k.Made c p := by
  obtain ⟨x, demotes⟩ := k
  cases demotes with
  | true =>
    rw [PassClass.made_demoting, not_not]
    have split : isCandidate programs c ⟨x, true⟩ p = true ↔
        (programs.get p).config.priority = x ∧ c.get p = some .high := by simp [isCandidate]
    rw [split]
    exact ⟨fun ⟨priority, high⟩ => ⟨⟨h.configured high, priority, fun _ => h.quality p high⟩, high⟩,
      fun ⟨moves, high⟩ => ⟨moves.priority, high⟩⟩
  | false =>
    rw [PassClass.made_shedding, ← ne_eq, Option.ne_none_iff_exists']
    have split : isCandidate programs c ⟨x, false⟩ p = true ↔
        (programs.get p).config.priority = x ∧ ∃ q, c.get p = some q := by simp [isCandidate, Option.isSome_iff_exists]
    rw [split]
    exact ⟨fun ⟨priority, q, hq⟩ => ⟨⟨h.configured hq, priority, nofun⟩, q, hq⟩,
      fun ⟨moves, carried⟩ => ⟨moves.priority, carried⟩⟩

/-- A program that a shedding class may take is no longer at HIGH, once the demoting class of its priority has no candidate
(R73). -/
theorem Lowered.standard_of_shedding {k : PassClass} {p : Prog} (hk : k ∈ passClasses) (sheds : k.demotes = false)
    (earlier : ∀ j ∈ passClasses, j.place < k.place → ∀ q, ¬ isCandidate programs c j q = true)
    (hp : isCandidate programs c k p = true) : c.get p = some .standard := by
  obtain ⟨moves, left⟩ := h.isCandidate_iff.mp hp
  obtain ⟨mem, before⟩ := PassClass.demoting_before k hk sheds
  have notHigh : c.get p ≠ some .high := fun high => earlier _ mem before p
    (h.isCandidate_iff.mpr ⟨⟨moves.configured, moves.priority, fun _ => h.quality p high⟩, not_not.mpr high⟩)
  unfold PassClass.Made at left
  rw [sheds] at left
  match e : c.get p with
  | none => exact absurd e left
  | some .standard => rfl
  | some .high => exact absurd e notHigh

/-- A step of the first class that has a candidate, on the candidate that gives way first, is the next move (R73, R74). -/
theorem Lowered.apply {k : PassClass} {p : Prog} (hk : k ∈ passClasses)
    (earlier : ∀ j ∈ passClasses, j.place < k.place → ∀ q, ¬ isCandidate programs c j q = true)
    (hp : isCandidate programs c k p = true)
    (first : ∀ q, isCandidate programs c k q = true → q ≠ p → GivesWay programs p q) : Lowered programs (k.apply c p) := by
  obtain ⟨moves, left⟩ := h.isCandidate_iff.mp hp
  have other {q : Prog} (ne : q ≠ p) : (k.apply c p).get q = c.get q := by rw [PassClass.apply_get, if_neg ne]
  have same : (k.apply c p).get p = if k.demotes then some .standard else none := by rw [PassClass.apply_get, if_pos rfl]
  have stays {j : PassClass} {q : Prog} (made : j.Made c q) : j.Made (k.apply c p) q := by
    by_cases e : q = p
    · subst e
      unfold PassClass.Made at made left ⊢
      rw [same]
      grind
    · unfold PassClass.Made at made ⊢
      rwa [other e]
  have only {j : PassClass} {q : Prog} (mem : j ∈ passClasses) (on : j.MovesOn programs q) (made : j.Made (k.apply c p) q)
      (open' : ¬ j.Made c q) : j = k ∧ q = p := by
    have e : q = p := by
      by_contra ne
      unfold PassClass.Made at made open'
      rw [other ne] at made
      exact open' made
    subst e
    refine ⟨?_, rfl⟩
    have priority : j.priority = k.priority := on.priority.symm.trans moves.priority
    have demotes : j.demotes = k.demotes := by
      unfold PassClass.Made at made open' left
      rw [same] at made
      cases sheds : k.demotes with
      | true => grind
      | false =>
        have standard := h.standard_of_shedding hk sheds earlier hp
        grind
    cases j
    cases k
    exact congrArg₂ PassClass.mk priority demotes
  refine ⟨fun q hq => ?_, fun q hq => ?_, fun q hq critical => ?_, fun i hi j hj r q onR onQ before made => ?_⟩
  · by_cases e : q = p
    · rw [e, moves.configured] at hq; cases hq
    · rw [other e, h.unconfigured q hq]
  · by_cases e : q = p
    · rw [e, same] at hq; grind
    · exact h.quality q (other e ▸ hq)
  · by_cases e : q = p
    · rw [e, same, if_pos (PassClass.critical_demotes k hk (moves.priority ▸ e ▸ critical))]
      exact Option.some_ne_none _
    · rw [other e]; exact h.critical q hq critical
  · by_cases already : j.Made c q
    · exact stays (h.ordered i hi j hj r q onR onQ before already)
    · obtain ⟨rfl, rfl⟩ := only hj onQ made already
      refine stays (not_not.mp fun left' => ?_)
      have candidate := h.isCandidate_iff.mpr ⟨onR, left'⟩
      rcases before with place | ⟨rfl, way⟩
      · exact earlier i hi place r candidate
      · exact (first r candidate fun e => GivesWay.irrefl q (e ▸ way)).asymm way

end lowered

/-! ### The slots in use (R73) -/

theorem Table.rows_eq_ofFn {α : Type} {n : Nat} (t : Table α n) : t.rows = List.ofFn t.get := by
  refine List.ext_getElem (by rw [t.size, List.length_ofFn]) fun i h _ => ?_
  rw [List.getElem_ofFn, Table.get_eq]

theorem Table.sum_rows {α : Type} {n : Nat} (t : Table α n) (f : α → Nat) : (t.rows.map f).sum = ∑ i, f (t.get i) := by
  rw [Table.rows_eq_ofFn, List.map_ofFn, List.sum_ofFn]
  rfl

theorem Carriage.total_eq (c : Carriage) : c.total = ∑ p, slotsOf (c.get p) := Table.sum_rows c slotsOf

theorem slotsOf_le (q : Option Quality) : slotsOf q ≤ 2 := by
  match q with
  | none => exact Nat.zero_le _
  | some .standard => exact Nat.le_succ _
  | some .high => exact Nat.le_refl _

theorem Carriage.total_le (c : Carriage) : c.total ≤ 64 := by
  rw [Carriage.total_eq]
  exact (Finset.sum_le_card_nsmul Finset.univ _ 2 fun p _ => slotsOf_le _).trans (by simp)

theorem Carriage.total_set (c : Carriage) (p : Prog) (q : Option Quality) :
    Carriage.total (c.set p q) + slotsOf (c.get p) = c.total + slotsOf q := by
  have rest : ∑ r ∈ Finset.univ.erase p, slotsOf ((c.set p q).get r) = ∑ r ∈ Finset.univ.erase p, slotsOf (c.get r) :=
    Finset.sum_congr rfl fun r hr => by rw [Table.get_set_other _ _ _ _ (Finset.ne_of_mem_erase hr).symm]
  have split (d : Carriage) : d.total = slotsOf (d.get p) + ∑ r ∈ Finset.univ.erase p, slotsOf (d.get r) :=
    d.total_eq.trans (Finset.add_sum_erase _ _ (Finset.mem_univ p)).symm
  rw [split, split c, rest, Table.get_set_same]
  omega

/-! ### The steps of the pass (R73, R75) -/

/-- A step is the first class's that has a candidate, on the program that the class takes. -/
theorem passStep_eq_some {programs : Table Program 32} {classes : List PassClass} {c c' : Carriage}
    (h : passStep programs classes c = some c') :
    ∃ earlier k later p, classes = earlier ++ k :: later ∧ (∀ j ∈ earlier, pick programs c j = none) ∧
      pick programs c k = some p ∧ c' = k.apply c p := by
  induction classes with
  | nil => cases h
  | cons k rest ih =>
    unfold passStep at h
    cases taken : pick programs c k with
    | some p =>
      rw [taken] at h
      exact ⟨[], k, rest, p, rfl, nofun, taken, (Option.some.inj h).symm⟩
    | none =>
      rw [taken] at h
      obtain ⟨earlier, j, later, p, split, none, some, eq⟩ := ih h
      refine ⟨k :: earlier, j, later, p, by rw [split]; rfl, fun i hi => ?_, some, eq⟩
      rcases List.mem_cons.mp hi with rfl | hi
      · exact taken
      · exact none i hi

theorem passStep_eq_none {programs : Table Program 32} {classes : List PassClass} {c : Carriage}
    (h : passStep programs classes c = none) : ∀ k ∈ classes, pick programs c k = none := by
  induction classes with
  | nil => exact nofun
  | cons k rest ih =>
    unfold passStep at h
    cases taken : pick programs c k with
    | some p => rw [taken] at h; cases h
    | none =>
      rw [taken] at h
      intro j hj
      rcases List.mem_cons.mp hj with rfl | hj
      · exact taken
      · exact ih h j hj

/-- The classes of a smaller place are those listed earlier. -/
theorem mem_of_place_lt {earlier later : List PassClass} {j k : PassClass} (split : passClasses = earlier ++ k :: later)
    (h : j.place < k.place) : j ∈ earlier := by
  by_contra no
  have place (i : PassClass) (hi : i ∉ earlier) : i.place = earlier.length + (k :: later).idxOf i := by
    rw [PassClass.place, split, List.idxOf_append, if_neg hi, Nat.add_comm]
  have nodup : (earlier ++ k :: later).Nodup := split ▸ (by decide : passClasses.Nodup)
  have hk : k ∉ earlier := fun mem => List.disjoint_of_nodup_append nodup mem (List.mem_cons_self ..)
  rw [place j no, place k hk, List.idxOf_cons_self] at h
  omega

theorem passSteps_fits {programs : Table Program 32} {c : Carriage} {budget fuel : Nat} (fits : c.total ≤ budget) :
    passSteps programs budget fuel c = c := by
  cases fuel with
  | zero => rfl
  | succ n => rw [passSteps, if_pos fits]

section steps
variable {programs : Table Program 32} {c c' : Carriage} (h : Lowered programs c)
include h

/-- Each step is the next move, and lowers the total by one (R73). -/
theorem Lowered.passStep (hs : passStep programs passClasses c = some c') : Lowered programs c' ∧ c'.total + 1 = c.total := by
  obtain ⟨earlier, k, later, p, split, idle, taken, rfl⟩ := passStep_eq_some hs
  obtain ⟨candidate, first⟩ := pick_eq_some taken
  have hk : k ∈ passClasses := split ▸ List.mem_append_right _ (List.mem_cons_self ..)
  have before : ∀ j ∈ passClasses, j.place < k.place → ∀ q, ¬ isCandidate programs c j q = true :=
    fun j _ place => pick_eq_none (idle j (mem_of_place_lt split place))
  refine ⟨h.apply hk before candidate first, ?_⟩
  have total := c.total_set p (if k.demotes then some .standard else none)
  unfold PassClass.apply
  cases sheds : k.demotes with
  | true =>
    have high := (h.isCandidate_iff.mp candidate).2
    unfold PassClass.Made at high
    rw [if_pos sheds, not_not] at high
    rw [high, sheds] at total
    exact Nat.succ.inj total
  | false =>
    rw [h.standard_of_shedding hk sheds before candidate, sheds] at total
    exact total

/-- With fuel for the total, the steps end within the budget, or where no class has a candidate; they do not go below the
budget (R73, R75). -/
theorem Lowered.passSteps {budget fuel : Nat} (enough : c.total ≤ fuel) :
    Lowered programs (passSteps programs budget fuel c) ∧
      ((passSteps programs budget fuel c).total ≤ budget ∨
        Machine.passStep programs passClasses (passSteps programs budget fuel c) = none) ∧
      (budget ≤ c.total → budget ≤ (passSteps programs budget fuel c).total) := by
  induction fuel generalizing c with
  | zero => exact ⟨h, .inl (enough.trans (Nat.zero_le _)), id⟩
  | succ n ih =>
    unfold Machine.passSteps
    split
    · next fits => exact ⟨h, .inl fits, id⟩
    · next tooMany =>
      cases step : Machine.passStep programs passClasses c with
      | none => exact ⟨h, .inr step, id⟩
      | some c' =>
        obtain ⟨lowered, total⟩ := h.passStep step
        obtain ⟨final, ends, above⟩ := ih lowered (by omega)
        exact ⟨final, ends, fun _ => above (by omega)⟩

end steps

/-! ### What the pass decides (R73 to R75) -/

section decided
variable {programs : Table Program 32} {c : Carriage} (h : Lowered programs c)
include h

/-- A configured program that is not carried as desired has had a move made on it. -/
theorem Lowered.exists_made {p : Prog} (hp : (programs.get p).config.configured = true)
    (changed : c.get p ≠ some (programs.get p).config.quality) :
    ∃ k ∈ passClasses, k.MovesOn programs p ∧ k.Made c p := by
  by_cases high : (programs.get p).config.quality = .high
  · exact ⟨_, PassClass.demoting_mem _, ⟨hp, rfl, fun _ => high⟩, PassClass.made_demoting.mpr (high ▸ changed)⟩
  · have shed : c.get p = none := by
      cases e : c.get p with
      | none => rfl
      | some q =>
        cases q with
        | high => exact absurd (h.quality p e) high
        | standard =>
          cases wanted : (programs.get p).config.quality with
          | standard => exact absurd (e.trans (congrArg some wanted.symm)) changed
          | high => exact absurd wanted high
    exact ⟨_, PassClass.shedding_mem fun critical => h.critical p hp critical shed, ⟨hp, rfl, nofun⟩,
      PassClass.made_shedding.mpr shed⟩

/-- With a program shed, every program of its priority is at STANDARD at most, and those still carried give way after it
(R73, R74). -/
theorem Lowered.shed_first {p q : Prog} (hp : (programs.get p).config.configured = true)
    (same : (programs.get p).config.priority = (programs.get q).config.priority) (shed : c.get p = none) :
    c.get q ≠ some .high ∧ (c.get q ≠ none → GivesWay programs p q) := by
  have mem := PassClass.shedding_mem fun critical => h.critical p hp critical shed
  have onP : (⟨(programs.get p).config.priority, false⟩ : PassClass).MovesOn programs p := ⟨hp, rfl, nofun⟩
  refine ⟨fun high => ?_, fun carried => GivesWay.of_ne (fun e => carried (e ▸ shed)) fun way => ?_⟩
  · obtain ⟨mem', before⟩ := PassClass.demoting_before _ mem rfl
    exact h.ordered _ mem' _ mem q p ⟨h.configured high, same.symm, fun _ => h.quality q high⟩ onP (.inl before) shed high
  · obtain ⟨x, hx⟩ := Option.ne_none_iff_exists'.mp carried
    exact carried (h.ordered _ mem _ mem q p ⟨h.configured hx, same.symm, nofun⟩ onP (.inr ⟨rfl, way⟩) shed)

/-- Of two programs of one priority wanted at HIGH, the one demoted gives way before the one still at HIGH (R73, R74). -/
theorem Lowered.demoted_first {p q : Prog} (wanted : (programs.get p).config.quality = .high)
    (same : (programs.get p).config.priority = (programs.get q).config.priority) (demoted : c.get p = some .standard)
    (high : c.get q = some .high) : GivesWay programs p q := by
  refine GivesWay.of_ne (fun e => ?_) fun way => ?_
  · rw [e, high] at demoted
    cases demoted
  · have mem := PassClass.demoting_mem (programs.get p).config.priority
    refine h.ordered _ mem _ mem q p ⟨h.configured high, same.symm, fun _ => h.quality q high⟩
      ⟨h.configured demoted, rfl, fun _ => wanted⟩ (.inr ⟨rfl, way⟩) ?_ high
    exact PassClass.made_demoting.mpr (by rw [demoted]; nofun)

/-- Before a program gives way at all, every program of an earlier priority is shed (R73). -/
theorem Lowered.earlier_shed {p q : Prog} (hp : (programs.get p).config.configured = true)
    (hq : (programs.get q).config.configured = true) (changed : c.get p ≠ some (programs.get p).config.quality)
    (earlier : ((programs.get q).config.priority = .low ∧ (programs.get p).config.priority ≠ .low) ∨
      ((programs.get q).config.priority = .high ∧ (programs.get p).config.priority = .critical)) : c.get q = none := by
  obtain ⟨k, hk, on, made⟩ := h.exists_made hp changed
  have mem : (⟨(programs.get q).config.priority, false⟩ : PassClass) ∈ passClasses :=
    PassClass.shedding_mem (by rcases earlier with ⟨e, -⟩ | ⟨e, -⟩ <;> rw [e] <;> nofun)
  have before := PassClass.priority_before _ mem k hk (on.priority ▸ earlier)
  exact h.ordered _ mem k hk q p ⟨hq, rfl, nofun⟩ on (.inl before) made

/-- Where no class has a candidate, every program that is not CRITICAL is shed and every CRITICAL one is carried at STANDARD
(R75). -/
theorem Lowered.of_no_step (ends : Machine.passStep programs passClasses c = none) {p : Prog}
    (hp : (programs.get p).config.configured = true) :
    c.get p = if (programs.get p).config.priority = .critical then some .standard else none := by
  have made {k : PassClass} (hk : k ∈ passClasses) (on : k.MovesOn programs p) : k.Made c p :=
    not_not.mp fun left => pick_eq_none (passStep_eq_none ends k hk) p (h.isCandidate_iff.mpr ⟨on, left⟩)
  split
  · next critical =>
    cases e : c.get p with
    | none => exact absurd e (h.critical p hp critical)
    | some q =>
      cases q with
      | standard => rfl
      | high => exact absurd e (made (PassClass.demoting_mem _) ⟨hp, rfl, fun _ => h.quality p e⟩)
  · next other => exact made (PassClass.shedding_mem other) ⟨hp, rfl, nofun⟩

end decided

section allocate
variable (programs : Table Program 32) (budget : Nat)

theorem allocate_lowered : Lowered programs (allocate programs budget) :=
  ((lowered_startCarriage programs).passSteps (Carriage.total_le _)).1

/-- The pass ends within the budget, or with every program that is not CRITICAL shed and every CRITICAL one at STANDARD
(R75). -/
theorem allocate_fits : (allocate programs budget).total ≤ budget ∨ ∀ p, (programs.get p).config.configured = true →
    (allocate programs budget).get p =
      if (programs.get p).config.priority = .critical then some .standard else none :=
  ((lowered_startCarriage programs).passSteps (Carriage.total_le _)).2.1.imp_right fun ends _ =>
    (allocate_lowered programs budget).of_no_step ends

theorem budget_le_allocate (h : budget ≤ (startCarriage programs).total) : budget ≤ (allocate programs budget).total :=
  ((lowered_startCarriage programs).passSteps (Carriage.total_le _)).2.2 h

end allocate

end Sys2Proof.Machine

namespace Sys2Proof.Proofs
open Sys2Proof Sys2Proof.Machine

/-- Settles O41: the pass ends in an initial segment of its classes' moves (`allocate_lowered`), within the budget or with no
move left (`allocate_fits`). -/
theorem theAllocationPassFollowsTheClasses : Obligations.TheAllocationPassFollowsTheClasses := by
  rintro programs budget _ rfl
  have lowered := allocate_lowered programs budget
  exact ⟨lowered.unconfigured, lowered.quality, lowered.critical, allocate_fits programs budget, passSteps_fits,
    fun above => budget_le_allocate programs budget above.le,
    fun p q hp _ same shed => lowered.shed_first hp same shed,
    fun p q hp hq high changed low => lowered.earlier_shed hp hq changed (.inl ⟨low, by rw [high]; nofun⟩),
    fun p q hp hq critical changed other => lowered.earlier_shed hp hq changed (by
      cases e : (programs.get q).config.priority with
      | critical => exact absurd e other
      | high => exact .inr ⟨rfl, critical⟩
      | low => exact .inl ⟨rfl, by rw [critical]; nofun⟩),
    fun p q _ wanted same demoted high => lowered.demoted_first wanted same demoted high⟩

end Sys2Proof.Proofs
end

section
/-! SUPPORT. Scope, what the allocation pass leaves (R75 to R77): its tables, `State.planned`, and the notices and the alert
that follow them. -/

namespace Sys2Proof.Machine

/-! ### The tables that a pass leaves -/

/-- The program records that a pass leaves (R76). -/
def State.plannedPrograms (s : State) : Table Program 32 := s.programs.mapIdx (passProgram (allocate s.programs s.budget))

/-- What a pass leaves and used, for the next one to compare with (R77). -/
def State.plannedMemo (s : State) : PassMemo :=
  ⟨s.planner.bank, s.budget, carriedList s.plannedPrograms, s.plannedPrograms.map (·.radiation)⟩

/-- The keys that a pass sets (R77). -/
def State.plannedKeys (s : State) (k : Link) : Link :=
  { k with
    planKey := k.planKey || (s.plannedMemo.carried != s.planner.lastPass.carried
      || s.plannedMemo.bank != s.planner.lastPass.bank || s.plannedMemo.budget != s.planner.lastPass.budget)
    programKeys := k.programKeys.mapIdx fun p b =>
      b || s.plannedMemo.states.get p != s.planner.lastPass.states.get p }

/-- The state that a pass leaves but for its notices and its alert: the records, the planner and the keys (R76, R77). -/
def State.planned (s : State) : State :=
  { s with
    programs := s.plannedPrograms
    planner := { s.planner with slotsInUse := (allocate s.programs s.budget).total, lastPass := s.plannedMemo }
    link := (s.plannedKeys s.link).watched s.now }

/-- The pass is its tables, then its notices, then its alert (R75, R76). -/
theorem State.allocationPass_eq (s : State) : s.allocationPass =
    if s.budget < (allocate s.programs s.budget).total
    then (s.planned.passNotices s.programs s.plannedPrograms s.budget).raiseFault .budgetDeficit s.budget
    else s.planned.passNotices s.programs s.plannedPrograms s.budget := rfl

theorem State.planned_reports (s : State) : s.planned.Reports s.allocationPass := by
  have notices := s.planned.passNotices_reports s.programs s.plannedPrograms s.budget
  rw [State.allocationPass_eq]
  split
  · exact notices.trans (State.raiseFault_reports ..)
  · exact notices

theorem State.planned_program (s : State) (p : Prog) :
    s.planned.program p = passProgram (allocate s.programs s.budget) p (s.program p) := Table.get_mapIdx ..

theorem State.allocationPass_program (s : State) (p : Prog) :
    s.allocationPass.program p = passProgram (allocate s.programs s.budget) p (s.program p) := by
  rw [← State.planned_program, show s.allocationPass = _ from s.planned_reports]
  rfl

theorem State.allocationPass_planner (s : State) : s.allocationPass.planner = s.planned.planner := by
  rw [show s.allocationPass = _ from s.planned_reports]

theorem State.allocationPass_link (s : State) : s.allocationPass.link = s.planned.link := by
  rw [show s.allocationPass = _ from s.planned_reports]

theorem State.allocationPass_programs (s : State) : s.allocationPass.programs = s.planned.programs := by
  rw [show s.allocationPass = _ from s.planned_reports]

/-! ### The carried programs (R75, R76) -/

theorem radiationOf_eq (k : ProgConfig) (q : Option Quality) : radiationOf k q = if k.configured = true then
    (match q with
      | none => .shed
      | some q => if q = k.quality then .carried else .demoted)
    else .unconfigured := by
  cases q <;> rfl

theorem radiationOf_eq_shed (k : ProgConfig) (q : Option Quality) :
    radiationOf k q = .shed ↔ k.configured = true ∧ q = none := by
  unfold radiationOf
  cases q with
  | none => simp
  | some x =>
    by_cases configured : k.configured = true
    · by_cases same : x = k.quality <;> simp [configured, same]
    · simp [configured]

/-- A program record that the pass leaves: its radiation state, and its shed count (R76). -/
theorem passProgram_eq (c : Carriage) (p : Prog) (r : Program) : passProgram c p r = { r with
    radiation := if r.config.configured = true then
        (match c.get p with
          | none => .shed
          | some q => if q = r.config.quality then .carried else .demoted)
      else .unconfigured
    shedCount := if r.config.configured = true ∧ c.get p = none ∧ r.radiation ≠ .shed then r.shedCount + 1
      else r.shedCount } := by
  rw [← radiationOf_eq]
  simp only [passProgram, radiationOf_eq_shed, and_assoc]

theorem carriedQuality_isSome (r : Program) : (carriedQuality r).isSome = r.radiation.isCarried := by
  unfold carriedQuality Radiation.isCarried
  cases r.radiation <;> rfl

/-- A program record that the pass leaves is carried at the quality that the pass decided (R76). -/
theorem Lowered.carriedQuality_passProgram {programs : Table Program 32} {c : Carriage} (h : Lowered programs c) (p : Prog) :
    carriedQuality (passProgram c p (programs.get p)) = c.get p := by
  unfold carriedQuality passProgram
  dsimp only
  rw [radiationOf_eq]
  cases e : c.get p with
  | none => cases (programs.get p).config.configured <;> rfl
  | some q =>
    rw [if_pos (h.configured e)]
    dsimp only
    by_cases same : q = (programs.get p).config.quality
    · rw [if_pos same, same]
    · rw [if_neg same]
      cases q with
      | standard => rfl
      | high => exact absurd (h.quality p e).symm same

theorem mem_carriedList (programs : Table Program 32) (p : Prog) (q : Quality) :
    (p, q) ∈ carriedList programs ↔ carriedQuality (programs.get p) = some q := by
  simp [carriedList]

theorem carriedList_ascending (programs : Table Program 32) : (carriedList programs).Pairwise fun x y => x.1 < y.1 := by
  refine List.pairwise_filterMap.mpr ((List.pairwise_lt_finRange 32).imp fun {p q} lt x hx y hy => ?_)
  obtain ⟨_, -, rfl⟩ := Option.map_eq_some_iff.mp hx
  obtain ⟨_, -, rfl⟩ := Option.map_eq_some_iff.mp hy
  exact lt

theorem State.carriedSlots_eq (s : State) : s.carriedSlots = ∑ p, slotsOf (carriedQuality (s.program p)) :=
  Table.sum_rows ..

theorem State.allocationPass_carriedQuality (s : State) (p : Prog) :
    carriedQuality (s.allocationPass.program p) = (allocate s.programs s.budget).get p := by
  rw [State.allocationPass_program]
  exact (allocate_lowered s.programs s.budget).carriedQuality_passProgram p

theorem State.allocationPass_carriedSlots (s : State) :
    s.allocationPass.carriedSlots = (allocate s.programs s.budget).total := by
  rw [State.carriedSlots_eq, Carriage.total_eq]
  exact Finset.sum_congr rfl fun p _ => by rw [State.allocationPass_carriedQuality]

/-! ### The keys (R77) -/

theorem State.planned_link (s : State) : s.planned.link = (s.plannedKeys s.link).watched s.now := rfl

theorem State.plannedKeys_planKey (s : State) (k : Link) : (s.plannedKeys k).planKey = (k.planKey ||
    decide (s.plannedMemo.carried ≠ s.planner.lastPass.carried ∨ s.planner.bank ≠ s.planner.lastPass.bank ∨
      s.budget ≠ s.planner.lastPass.budget)) := by
  rw [Bool.eq_iff_iff, Bool.or_eq_true k.planKey, decide_eq_true_iff]
  simp [State.plannedKeys, State.plannedMemo, or_assoc]

theorem State.plannedKeys_programKeys (s : State) (k : Link) (p : Prog) : (s.plannedKeys k).programKeys.get p =
    (k.programKeys.get p || decide ((s.plannedPrograms.get p).radiation ≠ s.planner.lastPass.states.get p)) := by
  rw [Bool.eq_iff_iff]
  simp [State.plannedKeys, State.plannedMemo]

/-! ### The notices (R76) -/

/-- One program's notices, by its state before the pass and after it. -/
theorem State.passNotice_eq (w : State) (p : Prog) (old : Radiation) (r : Program) (budget : Nat) :
    w.passNotice p old r.radiation r budget =
      if r.radiation = .shed ∧ old ≠ .shed then
        (if r.demand = 0 then id else fun x => x.notify .presetShed p.val r.demand 0 0)
          (w.notify .programShed p.val (match r.config.priority with
            | .critical => 1 | .high => 2 | .low => 3) r.demand budget)
      else if old = .shed ∧ r.radiation = .carried then w.notify .programRestored p.val 1 budget 0
      else if old = .shed ∧ r.radiation = .demoted then w.notify .programRestored p.val 2 budget 0
      else w := by
  have code : (match r.config.priority with | .critical => 1 | .high => 2 | .low => 3) = r.config.priority.code := by
    cases r.config.priority <;> rfl
  rw [code]
  unfold State.passNotice
  dsimp only
  by_cases enters : r.radiation = .shed ∧ old ≠ .shed
  · rw [if_pos enters, if_pos enters]
    rcases Nat.eq_zero_or_pos r.demand with none | some
    · rw [if_neg (by omega), if_pos none]
      rfl
    · rw [if_pos some, if_neg (by omega)]
  · rw [if_neg enters, if_neg enters]
    cases r.radiation <;> by_cases shed : old = .shed <;> simp [shed, Radiation.isCarried]

/-- The notices of a pass, in ascending program number. -/
theorem State.passNotices_planned (s w : State) : w.passNotices s.programs s.plannedPrograms s.budget =
    (List.finRange 32).foldl (fun w p =>
      if (s.plannedPrograms.get p).radiation = .shed ∧ (s.program p).radiation ≠ .shed then
        (if (s.program p).demand = 0 then id else fun x => x.notify .presetShed p.val (s.program p).demand 0 0)
          (w.notify .programShed p.val (match (s.program p).config.priority with
            | .critical => 1 | .high => 2 | .low => 3) (s.program p).demand s.budget)
      else if (s.program p).radiation = .shed ∧ (s.plannedPrograms.get p).radiation = .carried then
        w.notify .programRestored p.val 1 s.budget 0
      else if (s.program p).radiation = .shed ∧ (s.plannedPrograms.get p).radiation = .demoted then
        w.notify .programRestored p.val 2 s.budget 0
      else w) w := by
  have record (p : Prog) : s.plannedPrograms.get p = passProgram (allocate s.programs s.budget) p (s.program p) :=
    Table.get_mapIdx ..
  refine congrArg (fun f => List.foldl f w (List.finRange 32)) (funext₂ fun w p => ?_)
  rw [State.passNotice_eq, record]
  rfl

end Sys2Proof.Machine
end

section
/-! SUPPORT. Scope, the law of the carrier plan (R75): the law reads the plan alone (`State.carriedFits_congr`), a pass brings
it about (`State.allocationPass_planFits`), and every operation but those that run a pass leaves the plan as it is. -/

namespace Sys2Proof.Machine

/-! ### What the law reads -/

/-- What the law of the carrier plan reads: the start-up state, the current bank's budget, and each program's priority,
quality and radiation state (R75). -/
structure CarrierPlan where
  startup : Startup
  budget : Nat
  programs : Table (Priority × Quality × Radiation) 32

/-- The part of a program record that the law reads. -/
def Program.plan (r : Program) : Priority × Quality × Radiation := (r.config.priority, r.config.quality, r.radiation)

/-- The carrier plan that stands in a state. -/
def State.plan (s : State) : CarrierPlan := ⟨s.startup, s.budget, s.programs.map Program.plan⟩

/-- The law of the carrier plan, start-up aside (R75). -/
def State.planFits (s : State) : Prop := s.carriedSlots ≤ s.budget ∨
  ∀ p, (s.program p).radiation.isCarried = true →
    (s.program p).config.priority = .critical ∧ carriedQuality (s.program p) = some .standard

theorem State.planFits.carriedFits {s : State} (h : s.planFits) : s.carriedFits := fun _ => h

section congr
variable {s t : State} (h : t.plan = s.plan)
include h

theorem State.plan_startup : t.startup = s.startup := congrArg CarrierPlan.startup h

theorem State.plan_budget : t.budget = s.budget := congrArg CarrierPlan.budget h

theorem State.plan_program (p : Prog) : (t.program p).plan = (s.program p).plan := by
  have rows := congrArg (fun x : CarrierPlan => x.programs.get p) h
  simp only [State.plan, Table.get_map] at rows
  exact rows

theorem State.planFits_congr : t.planFits ↔ s.planFits := by
  have program (p : Prog) : (t.program p).config.priority = (s.program p).config.priority ∧
      (t.program p).config.quality = (s.program p).config.quality ∧
      (t.program p).radiation = (s.program p).radiation := by
    have same := State.plan_program h p
    simpa only [Program.plan, Prod.mk.injEq] using same
  have quality (p : Prog) : carriedQuality (t.program p) = carriedQuality (s.program p) := by
    obtain ⟨-, wanted, radiation⟩ := program p
    rw [carriedQuality, radiation, wanted, carriedQuality]
  have slots : t.carriedSlots = s.carriedSlots := by
    rw [State.carriedSlots_eq, State.carriedSlots_eq]
    exact Finset.sum_congr rfl fun p _ => by rw [quality]
  unfold State.planFits
  rw [slots, State.plan_budget h]
  simp only [quality, program]

/-- The law passes to a state with the same plan. -/
theorem State.carriedFits_congr (fits : s.carriedFits) : t.carriedFits := fun done =>
  (State.planFits_congr h).mpr (fits ((State.plan_startup h).symm.trans done))

end congr

theorem State.plan_of_programs {s t : State} (startup : t.startup = s.startup) (budget : t.budget = s.budget)
    (programs : ∀ p, (t.program p).plan = (s.program p).plan) : t.plan = s.plan := by
  unfold State.plan
  rw [startup, budget]
  congr 1
  exact Table.ext_get fun p => by
    rw [Table.get_map, Table.get_map]
    exact programs p

/-- A pass brings the law about, whatever stood before it (R75). -/
theorem State.allocationPass_planFits (s : State) : s.allocationPass.planFits := by
  have budget : s.allocationPass.budget = s.budget := by
    rw [show s.allocationPass = _ from s.allocationPass_frame]
    rfl
  unfold State.planFits
  rw [State.allocationPass_carriedSlots, budget]
  refine (allocate_fits s.programs s.budget).imp_right fun least p carried => ?_
  have quality := s.allocationPass_carriedQuality p
  have configured : (s.programs.get p).config.configured = true := by
    obtain ⟨q, hq⟩ := Option.isSome_iff_exists.mp ((carriedQuality_isSome _).trans carried)
    exact (allocate_lowered s.programs s.budget).configured (quality.symm.trans hq)
  rw [least p configured] at quality
  have critical : (s.programs.get p).config.priority = .critical := by
    by_contra other
    rw [if_neg other] at quality
    rw [← carriedQuality_isSome, quality] at carried
    cases carried
  rw [if_pos critical] at quality
  refine ⟨?_, quality⟩
  rw [State.allocationPass_program]
  exact critical

/-! ### Writes that leave the plan -/

section writes
variable (s : State)

@[simp] theorem State.modifyDesk_plan (d : DeskId) (f : Desk → Desk) : (s.modifyDesk d f).plan = s.plan := rfl
@[simp] theorem State.setDeskState_plan (d : DeskId) (x : DeskState) : (s.setDeskState d x).plan = s.plan := rfl
@[simp] theorem State.setBoothConfig_plan (b : Fin 24) (c : BoothConfig) : (s.setBoothConfig b c).plan = s.plan := rfl
@[simp] theorem State.setRequest_plan (b : Fin 24) (r : Option HandoverRequest) : (s.setRequest b r).plan = s.plan := rfl
@[simp] theorem State.setInterpreters_plan (l : List Interpreter) : (s.setInterpreters l).plan = s.plan := rfl
@[simp] theorem State.modifyInterpreter_plan (n : Nat) (f : Interpreter → Interpreter) :
    (s.modifyInterpreter n f).plan = s.plan := rfl
@[simp] theorem State.setReceivers_plan (l : List Receiver) : (s.setReceivers l).plan = s.plan := rfl
@[simp] theorem State.modifyReceiver_plan (n : Nat) (f : Receiver → Receiver) : (s.modifyReceiver n f).plan = s.plan := rfl
@[simp] theorem State.setReceiverState_plan (n : Nat) (x : ReceiverState) : (s.setReceiverState n x).plan = s.plan := rfl
@[simp] theorem State.setSlot_plan (k : Fin 512) (v : Option Nat) : (s.setSlot k v).plan = s.plan := rfl
@[simp] theorem State.setStocktake_plan (k : Stocktake) : (s.setStocktake k).plan = s.plan := rfl
@[simp] theorem State.setHires_plan (l : List Hire) : (s.setHires l).plan = s.plan := rfl
@[simp] theorem State.setHireCounter_plan (n : Nat) : (s.setHireCounter n).plan = s.plan := rfl
@[simp] theorem State.modifyHire_plan (n : Nat) (f : Hire → Hire) : (s.modifyHire n f).plan = s.plan := rfl
@[simp] theorem State.removeHire_plan (n : Nat) : (s.removeHire n).plan = s.plan := rfl
@[simp] theorem State.setQueue_plan (l : List Settled) : (s.setQueue l).plan = s.plan := rfl
@[simp] theorem State.setTariff_plan (k : Fin 8) (t : Tariff) : (s.setTariff k t).plan = s.plan := rfl
@[simp] theorem State.setClock_plan (t : HallTime) (v : Bool) : (s.setClock t v).plan = s.plan := rfl
@[simp] theorem State.setRestart_plan (n : BitVec 16) (c : RestartCause) : (s.setRestart n c).plan = s.plan := rfl
@[simp] theorem State.restartTickWatch_plan : s.restartTickWatch.plan = s.plan := rfl
@[simp] theorem State.setSession_plan (x : Session) : (s.setSession x).plan = s.plan := rfl
@[simp] theorem State.modifyCounters_plan (f : DayCounters → DayCounters) : (s.modifyCounters f).plan = s.plan := rfl
@[simp] theorem State.setDay_plan (n : Nat) (c : DayCounters) (d : Option DaySummary) : (s.setDay n c d).plan = s.plan := rfl
@[simp] theorem State.updateLink_plan (f : Link → Link) : (s.updateLink f).plan = s.plan := rfl
@[simp] theorem State.setHold_plan (h : Option Shadow) : (s.setHold h).plan = s.plan := rfl
@[simp] theorem State.writeThreshold_plan (v : Nat) : (s.writeThreshold v).plan = s.plan := rfl
@[simp] theorem State.withFaults_plan (c : FaultCapture) : (s.withFaults c).plan = s.plan := rfl
@[simp] theorem State.refuse_plan (r : Result) : (s.refuse r).state.plan = s.plan := rfl

/-- A change of one program's record that leaves what the law reads of it. -/
theorem State.modifyProgram_plan (p : Prog) (f : Program → Program)
    (hf : (f (s.program p)).plan = (s.program p).plan) : (s.modifyProgram p f).plan = s.plan := by
  refine State.plan_of_programs rfl rfl fun q => ?_
  show ((s.programs.modify p f).get q).plan = _
  rw [Table.get_modify]
  split
  · next same => exact same ▸ hf
  · rfl

/-- A change of every program's record that leaves what the law reads of it. -/
theorem State.writePrograms_plan (f : Prog → Program → Program) (hf : ∀ p r, (f p r).plan = r.plan) :
    (s.writePrograms f).plan = s.plan := by
  refine State.plan_of_programs rfl rfl fun q => ?_
  show ((s.programs.mapIdx f).get q).plan = _
  rw [Table.get_mapIdx, hf]
  rfl

@[simp] theorem State.loseLive_plan (p : Prog) (c : OffAirCause) : (s.loseLive p c).plan = s.plan :=
  s.modifyProgram_plan p _ rfl

end writes

/-! ### Notices, faults and the derivation pass -/

theorem State.Reports.plan {s t : State} (h : s.Reports t) : t.plan = s.plan := by
  rw [show t = _ from h]
  rfl

section notices
variable (s : State)

@[simp] theorem State.notify_plan (k : NoticeKind) (a b c d : Nat) : (s.notify k a b c d).plan = s.plan :=
  (s.notify_reports k a b c d).plan

@[simp] theorem State.raiseFault_plan (f : FaultKind) (c : Nat) : (s.raiseFault f c).plan = s.plan :=
  (s.raiseFault_reports f c).plan

@[simp] theorem State.raiseNow_plan (f : FaultKind) (c : Nat) : (s.raiseNow f c).plan = s.plan :=
  (s.raiseNow_reports f c).plan

theorem State.foldl_plan {α : Type} {f : State → α → State} (hf : ∀ u a, (f u a).plan = u.plan) (l : List α) :
    (l.foldl f s).plan = s.plan := by
  induction l generalizing s with
  | nil => rfl
  | cons a rest ih => exact (ih _).trans (hf s a)

@[simp] theorem State.derivationPass_plan : s.derivationPass.plan = s.plan := by
  have programs := s.derivationPass_programs
  have frame := s.derivationPass_frame
  generalize s.derivationPass = u at programs frame ⊢
  rw [frame]
  refine State.plan_of_programs rfl rfl fun p => ?_
  show (u.programs.get p).plan = _
  rw [programs, Table.get_mapIdx]
  rfl

end notices

end Sys2Proof.Machine
end

section
/-! SUPPORT. Scope, the law of the carrier plan (R75): the operations and command bodies that leave the plan as it is. Each is a
walk through its branches, every one of them a chain of writes that leave the plan. -/

namespace Sys2Proof.Machine

/-! ### The Booth Section leaves the plan -/

section booth
variable (s : State)

@[simp] theorem State.cut_plan (d : DeskId) (c : OffAirCause) : (s.cut d c).plan = s.plan := by
  unfold State.cut
  split <;> simp

@[simp] theorem State.dropRequest_plan (b : Fin 24) (c : DropCause) : (s.dropRequest b c).plan = s.plan := by
  unfold State.dropRequest
  split <;> simp

@[simp] theorem State.overrideCut_plan (d : DeskId) : (s.overrideCut d).plan = s.plan := by
  unfold State.overrideCut
  dsimp only
  repeat' split
  all_goals simp

@[simp] theorem State.cutMarked_plan (m : Option DeskId) : (s.cutMarked m).plan = s.plan := by
  cases m with
  | none => rfl
  | some e => exact s.overrideCut_plan e

@[simp] theorem State.goLive_plan (d : DeskId) (o : Output) : (s.goLive d o).plan = s.plan := by
  unfold State.goLive
  split
  · dsimp only
    rw [State.modifyInterpreter_plan]
    refine (State.modifyProgram_plan _ _ _ ?_).trans (State.modifyDesk_plan ..)
    rfl
  · rfl

@[simp] theorem State.finishHandover_plan (b : Fin 24) (x y : Fin 3) (n : Nat) :
    (s.finishHandover b x y n).plan = s.plan := by
  simp [State.finishHandover]

@[simp] theorem State.failHandover_plan (b : Fin 24) (x : Fin 3) (p : Prog) (e : DeskId) :
    (s.failHandover b x p e).plan = s.plan := by
  simp [State.failHandover]

@[simp] theorem State.completeHandover_plan (b : Fin 24) (x : Fin 3) (r : HandoverRequest) (e : Option DeskId) (n : Nat) :
    (s.completeHandover b x r e n).plan = s.plan := by
  cases e <;> simp [State.completeHandover]

@[simp] theorem State.release_plan (d : DeskId) : (s.release d).plan = s.plan := by
  unfold State.release
  dsimp only
  repeat' split
  all_goals simp

@[simp] theorem State.forceHandover_plan (b : Fin 24) (r : HandoverRequest) : (s.forceHandover b r).plan = s.plan := by
  unfold State.forceHandover
  dsimp only
  repeat' split
  all_goals simp

@[simp] theorem State.vacate_plan (d : DeskId) : (s.vacate d).plan = s.plan := by
  unfold State.vacate
  split <;> simp

@[simp] theorem State.switchOutput_plan (d : DeskId) (o : Output) (p : Prog) : (s.switchOutput d o p).plan = s.plan := by
  unfold State.switchOutput
  split
  · refine (State.modifyProgram_plan _ _ _ ?_).trans (s.loseLive_plan _ _)
    rfl
  · rfl

@[simp] theorem State.boothTick_plan : s.boothTick.plan = s.plan := by
  rw [State.boothTick_frame]
  rfl

@[simp] theorem State.leaveLive_plan : s.leaveLive.plan = s.plan := by
  unfold State.leaveLive
  dsimp only
  rw [State.derivationPass_plan, State.foldl_plan _ fun u b => by split <;> simp, State.foldl_plan _ fun u i => by simp]
  rfl

theorem login_plan (d : DeskId) (id : Nat) : (login d id s).state.plan = s.plan := by
  unfold login
  dsimp only
  repeat' split
  all_goals simp

theorem logout_plan (d : DeskId) : (logout d s).state.plan = s.plan := by
  unfold logout
  dsimp only
  repeat' split
  all_goals simp

theorem takeAir_plan (d : DeskId) (o : Output) (p : Prog) (m : Option DeskId) : (takeAir d o p m s).state.plan = s.plan := by
  unfold takeAir State.askHandover State.micAnswer State.pendingAnswer
  repeat' split
  all_goals simp

theorem micOn_plan (d : DeskId) (o : Output) : (micOn d o s).state.plan = s.plan := by
  unfold micOn
  repeat' split
  all_goals simp [takeAir_plan]

theorem micOff_plan (d : DeskId) : (micOff d s).state.plan = s.plan := by
  unfold micOff
  repeat' split
  all_goals simp

theorem cancelHandover_plan (b : Fin 24) : (cancelHandover b s).state.plan = s.plan := by
  unfold cancelHandover
  split <;> simp

theorem selectSource_plan (d : DeskId) (x : Source) : (selectSource d x s).state.plan = s.plan := by
  unfold selectSource State.selectAnswer
  dsimp only
  repeat' split
  all_goals simp

theorem readInterpreter_plan (x : Nat ⊕ Nat) : (readInterpreter x s).state.plan = s.plan := by
  unfold readInterpreter State.interpreterAnswer
  repeat' split
  all_goals rfl

end booth

/-! ### The Receiver Registry and the racks leave the plan -/

section registry
variable (s : State)

@[simp] theorem State.freeSlot_plan (n : Nat) : (s.freeSlot n).plan = s.plan := by
  unfold State.freeSlot
  split <;> simp

@[simp] theorem State.clearMark_plan (n : Nat) : (s.clearMark n).plan = s.plan := by
  unfold State.clearMark
  repeat' split
  all_goals simp

@[simp] theorem State.issueReceiver_plan (n k : Nat) : (s.issueReceiver n k).plan = s.plan := by
  simp [State.issueReceiver]

@[simp] theorem State.unrackReceiver_plan (n : Nat) : (s.unrackReceiver n).plan = s.plan := by
  simp [State.unrackReceiver]

@[simp] theorem State.loseReceiver_plan (n k : Nat) : (s.loseReceiver n k).plan = s.plan := by
  simp [State.loseReceiver]

@[simp] theorem State.pullFromRack_plan (m : Nat) (k : Fin 512) (c : Nat) : (s.pullFromRack m k c).plan = s.plan := by
  simp [State.pullFromRack]

@[simp] theorem State.displace_plan (n : Nat) (k : Fin 512) : (s.displace n k).1.plan = s.plan := by
  unfold State.displace
  repeat' split
  all_goals simp

@[simp] theorem State.seatAndPlace_plan (n : Nat) (k : Fin 512) (b : Nat) (x : ReceiverState) :
    (s.seatAndPlace n k b x).plan = s.plan := by
  simp [State.seatAndPlace, State.seat]

@[simp] theorem State.pull_plan (m : Nat) (k : Fin 512) : (s.pull m k).plan = s.plan := by
  unfold State.pull
  repeat' split
  all_goals simp

theorem readReceiver_plan (x : ReceiverSelector) : (readReceiver x s).state.plan = s.plan := by
  unfold readReceiver
  split <;> rfl

theorem enrolReceiver_plan (n : Nat) : (enrolReceiver n s).state.plan = s.plan := by
  unfold enrolReceiver
  dsimp only
  repeat' split
  all_goals simp

theorem withdrawReceiver_plan (n : Nat) : (withdrawReceiver n s).state.plan = s.plan := by
  unfold withdrawReceiver
  repeat' split
  all_goals simp [withdrawAnswer_state]

theorem reinstateReceiver_plan (n : Nat) : (reinstateReceiver n s).state.plan = s.plan := by
  unfold reinstateReceiver
  repeat' split
  all_goals simp

theorem deleteReceiver_plan (n : Nat) : (deleteReceiver n s).state.plan = s.plan := by
  unfold deleteReceiver State.removeReceiver
  repeat' split
  all_goals simp

theorem setThreshold_plan (v : Nat) : (setThreshold v s).state.plan = s.plan := rfl

theorem stocktakeStart_plan (x : Unit) : (stocktakeStart x s).state.plan = s.plan := by
  unfold stocktakeStart
  split <;> rfl

theorem stocktakeEnd_plan (x : Unit) : (stocktakeEnd x s).state.plan = s.plan := by
  unfold stocktakeEnd
  split <;> rfl

theorem rackBattery_plan (n b : Nat) : (rackBattery n b s).state.plan = s.plan := by
  unfold rackBattery
  split <;> rfl

theorem rackRemoved_plan (k : Fin 512) : (rackRemoved k s).state.plan = s.plan := by
  unfold rackRemoved
  split <;> simp

end registry

/-! ### The Hire Table and the Settlement Unit leave the plan -/

section hires
variable (s : State)

@[simp] theorem State.appendSettled_plan (r : Settled) : (s.appendSettled r).plan = s.plan := by
  unfold State.appendSettled
  dsimp only
  split <;> simp

@[simp] theorem State.closeHire_plan (h : Hire) : (s.closeHire h).1.plan = s.plan := by
  unfold State.closeHire
  dsimp only
  split <;> simp

@[simp] theorem State.closeIfDone_plan (n : Nat) : (s.closeIfDone n).1.plan = s.plan := by
  unfold State.closeIfDone
  split
  · rfl
  · split
    · rfl
    · exact s.closeHire_plan _

@[simp] theorem State.changeDemand_plan (p : Option Prog) (f : Nat → Nat) : (s.changeDemand p f).plan = s.plan := by
  cases p with
  | none => rfl
  | some p => exact s.modifyProgram_plan p _ rfl

@[simp] theorem State.openHire_plan (n : Nat) (a : OpenArgs) : (s.openHire n a).plan = s.plan := by
  unfold State.openHire
  dsimp only
  rw [State.modifyCounters_plan, State.changeDemand_plan, State.foldl_plan _ fun u n => by simp]
  simp

@[simp] theorem State.addLine_plan (h : Hire) (n : Nat) : (s.addLine h n).plan = s.plan := by
  simp [State.addLine]

@[simp] theorem State.returnReceiver_plan (r : Receiver) : (s.returnReceiver r).1.plan = s.plan := by
  unfold State.returnReceiver State.returnLine
  split <;> simp

@[simp] theorem State.writeOffLine_plan (h : Hire) (i n : Nat) : (s.writeOffLine h i n).plan = s.plan := by
  simp [State.writeOffLine]

@[simp] theorem State.movePreset_plan (h : Hire) (p : Option Prog) : (s.movePreset h p).plan = s.plan := by
  simp [State.movePreset]

@[simp] theorem State.checkOverdue_plan (h : Hire) : (s.checkOverdue h).plan = s.plan := by
  unfold State.checkOverdue
  dsimp only
  split <;> simp

@[simp] theorem State.implicitReturn_plan (r : Receiver) : (s.implicitReturn r).1.plan = s.plan := by
  unfold State.implicitReturn
  split <;> simp

@[simp] theorem State.takeRest_plan (x : Settled) (l : List Settled) : (s.takeRest x l).plan = s.plan := by
  unfold State.takeRest State.drawIn
  split <;> simp

theorem takeSettlement_plan (x : Unit) : (takeSettlement x s).state.plan = s.plan := by
  unfold takeSettlement
  split <;> simp

theorem openHire_plan (a : OpenArgs) : (openHire a s).state.plan = s.plan := by
  unfold openHire
  repeat' split
  all_goals simp

theorem addReceiver_plan (k n : Nat) : (addReceiver k n s).state.plan = s.plan := by
  unfold addReceiver
  repeat' split
  all_goals simp

theorem returnReceiver_plan (n : Nat) : (returnReceiver n s).state.plan = s.plan := by
  unfold returnReceiver
  split
  · rfl
  · split
    · exact s.returnReceiver_plan _
    all_goals simp

theorem writeOff_plan (k n : Nat) : (writeOff k n s).state.plan = s.plan := by
  unfold writeOff
  split
  · rfl
  · split
    · rfl
    · split
      · rfl
      · exact (State.closeIfDone_plan _ _).trans (s.writeOffLine_plan _ _ _)

theorem changePreset_plan (k : Nat) (p : Option Prog) : (changePreset k p s).state.plan = s.plan := by
  unfold changePreset
  repeat' split
  all_goals simp

theorem readHire_plan (x : HireSelector) (b : Bool) : (readHire x b s).state.plan = s.plan := by
  unfold readHire
  split <;> rfl

theorem findBadge_plan (n : Nat) : (findBadge n s).state.plan = s.plan := by
  unfold findBadge
  split <;> rfl

theorem rackSeated_plan (n : Nat) (k : Fin 512) (b : Nat) : (rackSeated n k b s).state.plan = s.plan := by
  unfold rackSeated
  split <;> simp

end hires

/-! ### Session and Clock and the link leave the plan -/

section session
variable (s : State)

@[simp] theorem State.takeOpportunity_plan : s.takeOpportunity.plan = s.plan := by
  unfold State.takeOpportunity
  repeat' split
  all_goals simp

@[simp] theorem State.changeSession_plan (x : Session) : (s.changeSession x).state.plan = s.plan := by
  simp [State.changeSession]

@[simp] theorem State.loadClock_plan (x : HallTime) : (s.loadClock x).plan = s.plan := by
  unfold State.loadClock
  dsimp only
  split <;> simp

@[simp] theorem State.closeDay_plan : s.closeDay.plan = s.plan := by
  unfold State.closeDay
  dsimp only
  rw [State.setDay_plan, State.setInterpreters_plan]
  refine State.writePrograms_plan _ _ ?_
  exact fun _ _ => rfl

@[simp] theorem State.clockTick_plan : s.clockTick.plan = s.plan := rfl

@[simp] theorem State.outageTick_plan : s.outageTick.plan = s.plan := by
  unfold State.outageTick
  split
  · exact s.writePrograms_plan _ fun _ _ => by split <;> rfl
  · rfl

@[simp] theorem State.checkAllOverdue_plan : s.checkAllOverdue.plan = s.plan :=
  State.foldl_plan _ (fun u h => u.checkOverdue_plan h) _

theorem openSession_plan (x : Unit) : (openSession x s).state.plan = s.plan := by
  unfold openSession
  repeat' split
  all_goals simp

theorem recess_plan (x : Unit) : (recess x s).state.plan = s.plan := by
  unfold recess
  split <;> simp

theorem resume_plan (x : Unit) : (resume x s).state.plan = s.plan := by
  unfold resume
  split <;> simp

theorem endSession_plan (x : Unit) : (endSession x s).state.plan = s.plan := by
  unfold endSession
  split <;> simp

theorem dayClose_plan (x : Unit) : (dayClose x s).state.plan = s.plan := by
  unfold dayClose
  split <;> simp

theorem readDaySummary_plan (x : Unit) : (readDaySummary x s).state.plan = s.plan := by
  unfold readDaySummary
  dsimp only
  split <;> rfl

theorem readNotice_plan (p : Port) (x : Unit) : (readNotice p x s).state.plan = s.plan := by
  unfold readNotice
  dsimp only
  split
  · rfl
  · exact (s.setPort_reports p _).plan

theorem portReset_plan (q : Port) : (portReset q s).state.plan = s.plan := by
  cases q <;> rfl

end session

end Sys2Proof.Machine
end

section
/-! SUPPORT. Scope, the law of the carrier plan (R75): every event either leaves the plan, or runs a pass last, or ends with
start-up running, so that the law passes through every step (`step_carriedFits`). -/

namespace Sys2Proof.Machine

/-! ### Configuration and the plan hold -/

section config
variable {s : State}

theorem State.writeBooth_plan (s : State) (b : Fin 24) (c : BoothConfig) : (s.writeBooth b c).plan = s.plan := by
  unfold State.writeBooth
  dsimp only
  split
  · rfl
  · split
    · rfl
    · exact State.derivationPass_plan _

theorem setBooth_plan (a : BoothArgs) (s : State) : (setBooth a s).state.plan = s.plan := by
  unfold setBooth
  split
  · rfl
  · split
    · rfl
    · exact s.writeBooth_plan _ _

/-- A configuration written that agrees with the old one in all that R60 names. -/
theorem State.setProgConfig_plan {p : Prog} {c : ProgConfig} (same : c.planDiffers (s.program p).config = false) :
    (s.setProgConfig p c).plan = s.plan := by
  simp only [ProgConfig.planDiffers, Bool.or_eq_false_iff, bne_eq_false_iff_eq] at same
  obtain ⟨⟨-, priority⟩, quality⟩ := same
  refine s.modifyProgram_plan p _ ?_
  simp only [Program.plan, priority, quality]

/-- A committed SET PROGRAM runs a pass, or changes nothing that the law reads (R60). -/
theorem State.commitProgram_carriedFits {p : Prog} {c : ProgConfig} (fits : s.carriedFits) :
    (s.commitProgram p c).carriedFits := by
  unfold State.commitProgram
  dsimp only
  cases differs : c.planDiffers (s.program p).config with
  | true => exact (State.allocationPass_planFits _).carriedFits
  | false =>
    have configured : c.configured = (s.program p).config.configured := by
      simp only [ProgConfig.planDiffers, Bool.or_eq_false_iff, bne_eq_false_iff_eq] at differs
      exact differs.1.1
    rw [configured, Bool.and_not_self]
    exact State.carriedFits_congr (State.setProgConfig_plan differs) fits

theorem setProgram_carriedFits (p : Prog) (c : ProgConfig) (fits : s.carriedFits) :
    (setProgram p c s).state.carriedFits := by
  unfold setProgram
  dsimp only
  split
  · exact fits
  · split
    · exact fits
    · unfold State.writeProgram
      split
      · exact fits
      · exact State.commitProgram_carriedFits fits

theorem planHold_plan (x : Unit) (s : State) : (planHold x s).state.plan = s.plan := by
  unfold planHold
  split <;> rfl

theorem planAbandon_plan (x : Unit) (s : State) : (planAbandon x s).state.plan = s.plan := by
  unfold planAbandon
  split <;> rfl

theorem readPlan_plan (x : PlanSelector) (s : State) : (readPlan x s).state.plan = s.plan := by
  unfold readPlan
  split <;> rfl

/-- PLAN RELEASE runs a pass last (R66). -/
theorem planRelease_carriedFits (x : Unit) (fits : s.carriedFits) : (planRelease x s).state.carriedFits := by
  unfold planRelease
  split
  · exact fits
  · split
    · exact fits
    · exact State.carriedFits_congr (State.setHold_plan _ none) (State.allocationPass_planFits _).carriedFits

theorem State.setBudget_budget (s : State) (k : Fin 8) (v : Nat) :
    (s.setBudget k v).budget = if k = s.planner.bank then v else s.budget := by
  show (s.planner.budgets.set k v).get s.planner.bank = _
  split
  · next same => rw [same, Table.get_set_same]
  · next other => exact Table.get_set_other _ _ _ _ other

/-- SET BANK BUDGET runs a pass, or leaves the current bank's budget (R69). -/
theorem setBankBudget_carriedFits (k : Fin 8) (v : Nat) (fits : s.carriedFits) :
    (setBankBudget k v s).state.carriedFits := by
  unfold setBankBudget
  dsimp only
  split
  · exact (State.allocationPass_planFits _).carriedFits
  · next no =>
    refine State.carriedFits_congr (s := s) (State.plan_of_programs rfl ?_ fun _ => rfl) fits
    rw [State.setBudget_budget]
    split
    · next current => exact not_not.mp fun differs => no ⟨current, differs⟩
    · rfl

end config

/-! ### A command -/

section command
variable {α : Type} {s t : State} {p : Port} {code : Byte} {params : List Byte} {parsed : Option α} {f : α → State → Reply}
  (h : (.next (s.serve p code params (withParams parsed f)) : Host.Outcome State Fault Refusal) = .next t)
include h

/-- The law passes through a command when it passes through its body. -/
theorem serve_carriedFits (hf : ∀ a u, State.carriedFits u → (f a u).state.carriedFits) (fits : s.carriedFits) :
    t.carriedFits := by
  cases h
  have body (u : State) (hu : u.carriedFits) : (withParams parsed f u).state.carriedFits := by
    cases parsed with
    | none => exact hu
    | some a => exact hf a u hu
  rcases s.serve_cases p code params (withParams parsed f) with k | ⟨u, k, e⟩
  · exact State.carriedFits_congr k.plan fits
  · rw [e]
    exact State.carriedFits_congr (State.placeAnswer_reports ..).plan (body u (State.carriedFits_congr k.plan fits))

/-- The law passes through a command whose body leaves the plan. -/
theorem serve_carriedFits_of_plan (hf : ∀ a u, (f a u).state.plan = State.plan u) (fits : s.carriedFits) : t.carriedFits :=
  serve_carriedFits h (fun a u => State.carriedFits_congr (hf a u)) fits

end command

/-! ### The start-ups -/

/-- While a start-up runs the law says nothing (R75). -/
theorem State.carriedFits_of_starting {s : State} (h : s.startup ≠ .done) : s.carriedFits := fun done => absurd done h

theorem State.checkOutcome_startup (s : State) (x : Option Nat) : (s.checkOutcome x).startup = s.startup := by
  unfold State.checkOutcome
  dsimp only
  split <;> rfl

theorem State.cutStartUp_startup (s : State) (b : Bool) : (s.cutStartUp b).startup = s.startup := by
  rcases s.cutStartUp_cases b with e | e <;> rw [e]
  exact State.checkOutcome_startup _ _

@[simp] theorem State.raiseHeld_plan (s : State) : s.raiseHeld.plan = s.plan := by
  unfold State.raiseHeld
  dsimp only
  rw [State.foldl_plan _ fun u f => u.raiseNow_plan _ _]
  rfl

@[simp] theorem State.raiseRetentionLost_plan (s : State) (x : Option Nat) : (s.raiseRetentionLost x).plan = s.plan := by
  cases x with
  | none => rfl
  | some g => exact s.raiseNow_plan _ _

@[simp] theorem State.started_plan (s : State) : s.started.plan = s.plan := s.notify_plan _ _ _ _ _

theorem State.complete_planFits (s : State) : s.complete.planFits ↔ s.planFits := Iff.rfl

/-- The start-up pass brings the law about before start-up is over (R75, R186). -/
theorem State.startPasses_complete_carriedFits (s : State) : s.startPasses.complete.carriedFits :=
  ((State.complete_planFits _).mpr (State.allocationPass_planFits _)).carriedFits

theorem State.externalReset_startup (s : State) : s.externalReset.startup ≠ .done := by
  unfold State.externalReset
  split
  · next checking =>
    show (s.cutStartUp true).startup ≠ .done
    rw [State.cutStartUp_startup, checking]
    nofun
  · nofun
  · nofun

/-! ### Every event -/

section events
variable {s t : State}

theorem powerOn_carriedFits (h : exec .powerOn s = .next t) : t.carriedFits := by
  cases h
  exact State.carriedFits_of_starting nofun

theorem mainPowerLoss_carriedFits (h : exec .mainPowerLoss s = .next t) (fits : s.carriedFits) : t.carriedFits := by
  cases h
  dsimp only
  split
  · next checking =>
    refine State.carriedFits_of_starting ?_
    show (s.cutStartUp false).startup ≠ .done
    simp only [Bool.and_eq_true, beq_iff_eq] at checking
    rw [State.cutStartUp_startup, checking.2]
    nofun
  · exact fits

theorem startupCheckComplete_carriedFits (h : exec .startupCheckComplete s = .next t) (fits : s.carriedFits) :
    t.carriedFits := by
  cases h
  split
  · exact State.carriedFits_congr (by simp) (State.startPasses_complete_carriedFits (s.checkOutcome s.retention.failedGroup))
  · exact fits

theorem externalReset_carriedFits (h : exec .externalReset s = .next t) (fits : s.carriedFits) : t.carriedFits := by
  cases h
  split
  · exact fits
  · split
    · exact State.carriedFits_of_starting s.externalReset_startup
    · exact fits

theorem resetRelease_carriedFits (h : exec .resetRelease s = .next t) (fits : s.carriedFits) : t.carriedFits := by
  cases h
  have run (u : State) : (u.startPasses.complete.raiseHeld).started.carriedFits :=
    State.carriedFits_congr (by simp) u.startPasses_complete_carriedFits
  split
  · dsimp only
    split
    · split
      · next checking =>
        refine State.carriedFits_of_starting ?_
        show s.startup ≠ .done
        rw [checking]
        nofun
      · exact run _
      · exact run _
    · exact fits
  · exact fits

theorem debounceExpiry_carriedFits (h : exec .debounceExpiry s = .next t) (fits : s.carriedFits) : t.carriedFits := by
  cases h
  split
  · next b _ =>
    dsimp only
    split
    · next starting => exact State.carriedFits_of_starting (by simpa [State.starting] using starting)
    · exact (State.allocationPass_planFits _).carriedFits
  · exact fits

theorem tick_plan (h : exec .tick s = .next t) : t.plan = s.plan := by
  cases h
  split <;> simp

theorem tickWatchExpiry_plan (h : exec .tickWatchExpiry s = .next t) : t.plan = s.plan := by
  cases h
  split
  · exact State.raiseFault_plan _ _ _
  · rfl

theorem healthLineChange_plan {lines : Fin 8} (h : exec (.healthLineChange lines) s = .next t) : t.plan = s.plan := by
  cases h
  split
  · rfl
  · split <;> rfl

theorem handoverExpiry_plan {b : Fin 24} (h : exec (.handoverExpiry b) s = .next t) : t.plan = s.plan := by
  cases h
  split
  · split <;> simp
  · rfl

theorem stocktakeExpiry_plan (h : exec .stocktakeExpiry s = .next t) : t.plan = s.plan := by
  cases h
  dsimp only
  split
  · exact State.notify_plan _ _ _ _ _ _
  · rfl

theorem readyAssert_plan (h : exec .readyAssert s = .next t) : t.plan = s.plan := by
  cases h
  split
  · simp
  · rfl

theorem readyDeassert_plan (h : exec .readyDeassert s = .next t) : t.plan = s.plan := by
  cases h
  split <;> rfl

theorem sendOpportunity_plan (h : exec .sendOpportunity s = .next t) : t.plan = s.plan := by
  cases h
  split <;> simp

theorem transmissionComplete_plan (h : exec .transmissionComplete s = .next t) : t.plan = s.plan := by
  cases h
  split <;> simp

theorem stallWatchExpiry_plan (h : exec .stallWatchExpiry s = .next t) : t.plan = s.plan := by
  cases h
  split
  · exact State.raiseFault_plan _ _ _
  · rfl

theorem vbakFailure_plan (h : exec .vbakFailure s = .next t) : t.plan = s.plan := by
  cases h
  split <;> rfl

theorem requestTransaction_plan {p : Port} {frame : List Byte} (h : exec (.requestTransaction p frame) s = .next t) :
    t.plan = s.plan := by
  cases h
  split
  · split
    · exact (s.shiftOut_reports p _).plan
    · exact (s.takeFrame_reports p _).plan
  · rfl

theorem fetchAnswer_plan {p : Port} (h : exec (.fetchAnswer p) s = .next t) : t.plan = s.plan := by
  cases h
  split
  · split
    · exact (((s.shiftOut_reports p _).trans (State.setPort_reports _ p _)).trans
        (State.takeSelfReset_reports _ p)).plan
    · exact (s.shiftOut_reports p _).plan
  · rfl

theorem statusOnly_plan {p : Port} (h : exec (.statusOnly p) s = .next t) : t.plan = s.plan := by
  cases h
  split
  · exact (s.shiftOut_reports p _).plan
  · rfl

theorem undefinedTransactionByte_plan {p : Port} {b : Byte} (h : exec (.undefinedTransactionByte p b) s = .next t) :
    t.plan = s.plan := by
  cases h
  split
  · exact (s.shiftOut_reports p _).plan
  · rfl

theorem unknownCommand_carriedFits {p : Port} {code : Byte} {params : List Byte}
    (h : exec (.unknownCommand p code params) s = .next t) (fits : s.carriedFits) : t.carriedFits := by
  cases h
  split
  · exact serve_carriedFits_of_plan (parsed := some ()) (f := fun _ u => u.refuse .unknownCommand) rfl (fun _ _ => rfl) fits
  · exact fits

end events

/-- Every event keeps the law: those that can move the plan each by its own lemma, and the others because they leave it. -/
theorem exec_carriedFits (c : Instr) (s t : State) (h : exec c s = .next t) (fits : s.carriedFits) : t.carriedFits := by
  have same (e : t.plan = s.plan) : t.carriedFits := State.carriedFits_congr e fits
  have plan {α : Type} {p : Port} {code : Byte} {params : List Byte} {parsed : Option α} {f : α → State → Reply}
      (h : (.next (s.serve p code params (withParams parsed f)) : Host.Outcome State Fault Refusal) = .next t)
      (hf : ∀ a u, (f a u).state.plan = State.plan u) : t.carriedFits := serve_carriedFits_of_plan h hf fits
  cases c with
  | powerOn => exact powerOn_carriedFits h
  | mainPowerLoss => exact mainPowerLoss_carriedFits h fits
  | startupCheckComplete => exact startupCheckComplete_carriedFits h fits
  | externalReset => exact externalReset_carriedFits h fits
  | resetRelease => exact resetRelease_carriedFits h fits
  | debounceExpiry => exact debounceExpiry_carriedFits h fits
  | tick => exact same (tick_plan h)
  | tickWatchExpiry => exact same (tickWatchExpiry_plan h)
  | healthLineChange lines => exact same (healthLineChange_plan h)
  | handoverExpiry b => exact same (handoverExpiry_plan h)
  | stocktakeExpiry => exact same (stocktakeExpiry_plan h)
  | readyAssert => exact same (readyAssert_plan h)
  | readyDeassert => exact same (readyDeassert_plan h)
  | sendOpportunity => exact same (sendOpportunity_plan h)
  | transmissionComplete => exact same (transmissionComplete_plan h)
  | stallWatchExpiry => exact same (stallWatchExpiry_plan h)
  | vbakFailure => exact same (vbakFailure_plan h)
  | requestTransaction p frame => exact same (requestTransaction_plan h)
  | fetchAnswer p => exact same (fetchAnswer_plan h)
  | statusOnly p => exact same (statusOnly_plan h)
  | undefinedTransactionByte p b => exact same (undefinedTransactionByte_plan h)
  | unknownCommand p code params => exact unknownCommand_carriedFits h fits
  | setProgram p params => exact serve_carriedFits h (fun a _ => setProgram_carriedFits a.1 a.2) fits
  | planRelease p params => exact serve_carriedFits h (fun x _ => planRelease_carriedFits x) fits
  | setBankBudget p params => exact serve_carriedFits h (fun a _ => setBankBudget_carriedFits a.1 a.2) fits
  | readStatus p params => exact plan h fun _ _ => rfl
  | readNotice p params => exact plan h fun x u => readNotice_plan u _ x
  | setNoticeMask p params => exact plan h fun _ u => (u.setPort_reports p _).plan
  | readCapability p params => exact plan h fun _ _ => rfl
  | login p params => exact plan h fun a u => login_plan u a.1 a.2
  | logout p params => exact plan h fun d u => logout_plan u d
  | micOn p params => exact plan h fun a u => micOn_plan u a.1 a.2
  | micOff p params => exact plan h fun d u => micOff_plan u d
  | cancelHandover p params => exact plan h fun b u => cancelHandover_plan u b
  | selectSource p params => exact plan h fun a u => selectSource_plan u a.1 a.2
  | readDesk p params => exact plan h fun _ _ => rfl
  | readBooth p params => exact plan h fun _ _ => rfl
  | readProgram p params => exact plan h fun _ _ => rfl
  | openHire p params => exact plan h fun a u => openHire_plan u a
  | addReceiver p params => exact plan h fun a u => addReceiver_plan u a.1 a.2
  | returnReceiver p params => exact plan h fun n u => returnReceiver_plan u n
  | writeOff p params => exact plan h fun a u => writeOff_plan u a.1 a.2
  | changePreset p params => exact plan h fun a u => changePreset_plan u a.1 a.2
  | readHire p params => exact plan h fun a u => readHire_plan u a.1 a.2
  | readReceiver p params => exact plan h fun x u => readReceiver_plan u x
  | rackSeated p params => exact plan h fun a u => rackSeated_plan u a.1 a.2.1 a.2.2
  | rackBattery p params => exact plan h fun a u => rackBattery_plan u a.1 a.2
  | rackRemoved p params => exact plan h fun k u => rackRemoved_plan u k
  | stocktakeStart p params => exact plan h fun x u => stocktakeStart_plan u x
  | stocktakeEnd p params => exact plan h fun x u => stocktakeEnd_plan u x
  | takeSettlement p params => exact plan h fun x u => takeSettlement_plan u x
  | findBadge p params => exact plan h fun n u => findBadge_plan u n
  | openSession p params => exact plan h fun x u => openSession_plan u x
  | recess p params => exact plan h fun x u => recess_plan u x
  | resume p params => exact plan h fun x u => resume_plan u x
  | endSession p params => exact plan h fun x u => endSession_plan u x
  | setBooth p params => exact plan h fun a u => setBooth_plan a u
  | planHold p params => exact plan h fun x u => planHold_plan x u
  | planAbandon p params => exact plan h fun x u => planAbandon_plan x u
  | setTariff p params => exact plan h fun _ _ => rfl
  | setThreshold p params => exact plan h fun v u => setThreshold_plan u v
  | setClock p params => exact plan h fun _ u => u.loadClock_plan _
  | dayClose p params => exact plan h fun x u => dayClose_plan u x
  | enrolReceiver p params => exact plan h fun n u => enrolReceiver_plan u n
  | withdrawReceiver p params => exact plan h fun n u => withdrawReceiver_plan u n
  | reinstateReceiver p params => exact plan h fun n u => reinstateReceiver_plan u n
  | deleteReceiver p params => exact plan h fun n u => deleteReceiver_plan u n
  | readFaults p params => exact plan h fun _ _ => rfl
  | clearFaults p params => exact plan h fun _ _ => rfl
  | readInterpreter p params => exact plan h fun x u => readInterpreter_plan u x
  | readDaySummary p params => exact plan h fun x u => readDaySummary_plan u x
  | resyncDistribution p params => exact plan h fun _ _ => rfl
  | portReset p params => exact plan h fun q u => portReset_plan u q
  | readPlan p params => exact plan h fun x u => readPlan_plan x u
  | readTariff p params => exact plan h fun _ _ => rfl

/-- The law passes through every step: an event by `exec_carriedFits`, and an idle step because it changes the timebase and the
queue of commands alone (R1). -/
theorem step_carriedFits (s t : State) (fits : s.carriedFits) (h : step s = .next t) : t.carriedFits := by
  unfold step at h
  split at h
  · next c rest _ => exact exec_carriedFits c _ t h fits
  · cases h
    refine State.carriedFits_congr ?_ fits
    unfold State.idle State.countMs
    split
    · rfl
    · split
      · rfl
      · split <;> rfl

end Sys2Proof.Machine

namespace Sys2Proof.Proofs
open Sys2Proof Sys2Proof.Machine

/-- Settles O42: what the pass leaves by its tables (`State.planned`), its notices one program at a time
(`State.passNotice_eq`), and the law by `step_carriedFits`. -/
theorem theCarriedProgramsFitTheBudget : Obligations.TheCarriedProgramsFitTheBudget := by
  refine ⟨?_, step_carriedFits⟩
  rintro s _ _ rfl rfl
  rw [State.allocationPass_carriedSlots, State.allocationPass_planner, State.allocationPass_link]
  refine ⟨fun p => ?_, rfl, carriedList_ascending _, fun p q => ?_, fun p => ?_, rfl, ?_, fun p => ?_, ?_, ?_⟩
  · rw [State.allocationPass_program]
    exact passProgram_eq ..
  · rw [← State.allocationPass_carriedQuality, State.program, State.allocationPass_programs]
    exact mem_carriedList _ p q
  · rw [State.program, State.allocationPass_programs]
    exact Table.get_map ..
  · rw [State.planned_link, Link.watched_eq]
    exact s.plannedKeys_planKey s.link
  · rw [State.planned_link, Link.watched_eq, State.program, State.allocationPass_programs]
    exact s.plannedKeys_programKeys s.link p
  · rw [State.planned_link, Link.watched_eq]
    rfl
  · rintro _ _ rfl rfl
    have program (p : Prog) : s.allocationPass.program p = s.plannedPrograms.get p := by
      rw [State.program, State.allocationPass_programs]
      rfl
    simp only [program, State.allocationPass_programs]
    rw [State.allocationPass_eq, State.passNotices_planned]
    rfl

end Sys2Proof.Proofs
end

section
/-! SUPPORT. Scope, the reads of the status, the capture and the plan (R68, R171, R172, R183): each as its fields, READ STATUS
while start-up runs as well. -/

namespace Sys2Proof.Machine

/-! ### A request that passes its port's checks -/

/-- A request that no check of its port decides, in start-up or after it: the body's reply under its answer (R167, R169). -/
theorem State.serve_of_passed {s : State} {p : Port} {code : Byte} {params : List Byte} {body : State → Reply} {r : Result}
    {fields : List Byte} (powered : s.powered = true) (running : s.resetAsserted = false)
    (idle : (s.port p).request = none) (settled : p = .operator → s.ports.selfReset = false) (short : params.length ≤ 250)
    (passed : s.portCheck p code params = none)
    (hb : body (s.taken p code params) = ⟨s.taken p code params, r, fields⟩) :
    s.serve p code params body = s.answered p code r fields := by
  rw [State.serve_ready s p code params body powered running idle short, State.takeRequest_plain s p code params settled,
    passed]
  show (s.taken p code params).handle p code body = _
  rw [State.handle, hb]
  exact State.taken_placeAnswer ..

/-- READ STATUS passes its port's checks at all times (R169, R171). -/
theorem State.portCheck_readStatus (s : State) (p : Port) : s.portCheck p 0x01#8 [] = none := by
  simp [State.portCheck, acceptedOn, commandAccess, paramsFit, paramLength?]

theorem State.taken_startup (s : State) (p : Port) (c : Byte) (l : List Byte) : (s.taken p c l).startup = s.startup := by
  cases p <;> rfl

/-! ### The fields of the plan (R68) -/

theorem Table.rows_flatMap {α β : Type} {n : Nat} (t : Table α n) (f : α → List β) :
    t.rows.flatMap f = (List.finRange n).flatMap fun i => f (t.get i) := by
  rw [Table.rows_eq_ofFn, List.ofFn_eq_map, List.flatMap_map]

theorem carriedList_length (programs : Table Program 32) : (carriedList programs).length =
    (List.finRange 32).countP fun p => (programs.get p).radiation.isCarried := by
  rw [carriedList, List.length_filterMap_eq_countP]
  simp only [Option.isSome_map, carriedQuality_isSome]

theorem ProgConfig.bytes_eq (c : ProgConfig) : c.bytes = be 1 (if c.configured then 1 else 2)
    ++ [c.label.c1, c.label.c2, c.label.c3] ++ be 1 c.priority.code ++ be 1 c.quality.code ++ be 1 c.engagement.code := rfl

theorem State.committedPlanBytes_eq (s : State) : s.committedPlanBytes =
    be 1 s.planner.bank.val ++ be 1 (s.planner.budgets.get s.planner.bank) ++ be 1 s.planner.slotsInUse
      ++ be 1 s.planner.lines.val ++ optBytes 1 (s.planner.candidate.map fun c => c.1.val)
      ++ flagByte s.planner.hold.isSome
      ++ be 1 ((List.finRange 32).countP fun q => (s.program q).radiation.isCarried)
      ++ (List.finRange 32).flatMap fun q =>
        be 1 (s.program q).radiation.code ++ be 1 (s.program q).config.quality.code := by
  rw [State.committedPlanBytes, Table.rows_flatMap, carriedList_length]
  rfl

theorem State.taken_committedPlanBytes (s : State) (p : Port) (c : Byte) (l : List Byte) :
    (s.taken p c l).committedPlanBytes = s.committedPlanBytes := by
  cases p <;> rfl

theorem State.taken_faultBytes (s : State) (p : Port) (c : Byte) (l : List Byte) :
    (s.taken p c l).faultBytes = s.faultBytes := by
  cases p <;> rfl

/-- READ PLAN by its selector, when the answer does not depend on the request in its slot (R68). -/
theorem exec_readPlan {s : State} {p : Port} {b : Byte} {sel : PlanSelector} {r : Result} {fields : List Byte}
    (h : s.canTake p) (hb : planSelector? b = some sel)
    (hr : ∀ l, readPlan sel (s.taken p 0x68#8 l) = ⟨s.taken p 0x68#8 l, r, fields⟩) :
    exec (.readPlan p [b]) s = .next (s.answered p 0x68#8 r fields) :=
  exec_of_plain h (by simp) rfl rfl (parsed := oneByte? planSelector? [b]) hb (hr _)

end Sys2Proof.Machine

namespace Sys2Proof.Proofs
open Sys2Proof Sys2Proof.Machine

/-- Settles O22: READ STATUS because no check of its port decides it (`State.portCheck_readStatus`), the other reads under
their answers, and the plan's fields row by row. -/
theorem statusReadsAnswerAndChangeNothing : Obligations.StatusReadsAnswerAndChangeNothing := by
  refine ⟨fun s p powered running idle settled => congrArg _ (State.serve_of_passed powered running idle settled (by simp)
    (s.portCheck_readStatus p) ?_), fun s p h => ?_, ⟨Config.siliconRevision.val + 1, by omega, by omega,
      fun s p h => ?_⟩, fun s p h => ⟨?_, fun shadow hold => ⟨?_, ?_⟩, fun hold => ⟨?_, ?_⟩⟩⟩
  · have starting : (if (s.taken p 0x01#8 []).starting then 1 else 2) = if s.startup = .done then 2 else 1 := by
      by_cases done : s.startup = .done <;> simp [State.starting, State.taken_startup, done]
    show readStatus p () _ = _
    unfold readStatus State.watchCode
    dsimp only
    rw [starting, State.taken_session, State.taken_planner, State.taken_link, State.taken_faultBytes, State.taken_port]
    rfl
  · refine exec_of_plain h (by simp) rfl rfl (parsed := noParams? []) rfl ?_
    unfold readFaults FaultCapture.recordBytes
    rw [State.taken_faultBytes, State.taken_faults]
    cases s.faults.record <;> rfl
  · exact exec_of_plain h (by simp) rfl rfl (parsed := noParams? []) rfl rfl
  · refine exec_readPlan h (sel := .committed) rfl fun l => ?_
    show (⟨_, .ok, (s.taken p 0x68#8 l).committedPlanBytes⟩ : Reply) = _
    rw [State.taken_committedPlanBytes, State.committedPlanBytes_eq]
    rfl
  · refine exec_readPlan h (sel := .pendingPrograms) rfl fun l => ?_
    simp only [readPlan, State.taken_planner, hold, Table.rows_flatMap, ProgConfig.bytes_eq]
  · refine exec_readPlan h (sel := .pendingBooths) rfl fun l => ?_
    simp only [readPlan, State.taken_planner, hold, Table.rows_flatMap]
  · exact exec_readPlan h (sel := .pendingPrograms) rfl fun l => by
      simp only [readPlan, State.taken_planner, hold, State.refuse]
  · exact exec_readPlan h (sel := .pendingBooths) rfl fun l => by
      simp only [readPlan, State.taken_planner, hold, State.refuse]

end Sys2Proof.Proofs
end
section
/-! SUPPORT. Scope, SET PROGRAM (R57, R59, R60, R62, R65): what a program that leaves the hall takes from the outputs and the
desks, the parameters as read from bytes, and what the command does by a plan hold and by a change of the committed plan. -/

namespace Sys2Proof.Machine

/-! ### A program leaves the outputs and the desks (R62) -/

section clear
variable {x : Outputs} {p : Prog}

theorem Outputs.clear_both (ha : x.a = some p) (hb : x.b = some p) : x.clear p = ⟨none, none⟩ :=
  (if_pos ha).trans (by rw [if_pos hb])

theorem Outputs.clear_first (ha : x.a = some p) (hb : x.b ≠ some p) : x.clear p = ⟨x.b, none⟩ :=
  (if_pos ha).trans (by rw [if_neg hb])

theorem Outputs.clear_second (ha : x.a ≠ some p) (hb : x.b = some p) : x.clear p = ⟨x.a, none⟩ :=
  (if_neg ha).trans (if_pos hb)

theorem Outputs.clear_neither (ha : x.a ≠ some p) (hb : x.b ≠ some p) : x.clear p = x :=
  (if_neg ha).trans (if_neg hb)

end clear

theorem State.clearOutputs_boothConfig (s : State) (p : Prog) (b : Fin 24) : (s.clearOutputs p).boothConfig b =
    { s.boothConfig b with outputs := (s.boothConfig b).outputs.clear p } := Table.get_map ..

theorem State.dropSelections_desk (s : State) (d : DeskId) : s.dropSelections.desk d = { s.desk d with selected :=
    if (s.desk d).selected ≠ 0 ∧ (s.program (s.desk d).selected).config.configured = false then 0
    else (s.desk d).selected } := by
  refine (Table.get_map ..).trans ?_
  simp only [Bool.not_eq_true]
  by_cases gone : (s.desk d).selected ≠ 0 ∧ (s.program (s.desk d).selected).config.configured = false
  · rw [if_pos gone]
    exact if_pos gone
  · rw [if_neg gone]
    exact if_neg gone

theorem State.clearOutputs_apart (p : Prog) : State.Apart fun s => s.clearOutputs p := fun s q c r l => by
  cases q <;> rfl

theorem State.dropSelections_apart : State.Apart State.dropSelections := fun s q c r l => by
  cases q <;> rfl

theorem State.unconfigure_apart (p : Prog) : State.Apart fun s => s.unconfigure p :=
  (State.dropSelections_apart.comp ((State.clearOutputs_apart p).comp (State.modifyProgram_apart p _))).derivationPass

/-! ### The parameters of SET PROGRAM (R59) -/

theorem configured?_byte (c : Bool) : configured? (BitVec.ofNat 8 (if c then 1 else 2)) = some c := by cases c <;> rfl

theorem priority?_byte (x : Priority) : priority? (BitVec.ofNat 8 x.code) = some x := by cases x <;> rfl

theorem quality?_byte (x : Quality) : quality? (BitVec.ofNat 8 x.code) = some x := by cases x <;> rfl

theorem engagement?_byte (x : Engagement) : engagement? (BitVec.ofNat 8 x.code) = some x := by cases x <;> rfl

theorem label?_of_legal {x : Label} (h : x.legal) : label? x.c1 x.c2 x.c3 = some x := by
  refine if_pos ?_
  rcases h with rfl | capitals
  · rfl
  · simp only [List.mem_cons, List.not_mem_nil, or_false, forall_eq_or_imp, forall_eq] at capitals
    simp [capitals]

theorem setProgramParams?_bytes (p : Prog) {c : ProgConfig} (h : c.label.legal) :
    setProgramParams? (be 1 p.val ++ c.params) = some (p, c) := by
  have bytes : be 1 p.val ++ c.params = [BitVec.ofNat 8 p.val, BitVec.ofNat 8 (if c.configured then 1 else 2), c.label.c1,
    c.label.c2, c.label.c3, BitVec.ofNat 8 c.priority.code, BitVec.ofNat 8 c.quality.code,
    BitVec.ofNat 8 c.engagement.code] := rfl
  rw [bytes]
  simp only [setProgramParams?, prog?_byte, configured?_byte, label?_of_legal h, priority?_byte, quality?_byte,
    engagement?_byte]

/-! ### What SET PROGRAM does (R59, R60, R62, R65) -/

/-- Floor's four fixed values stand in place of those given (R57, R59). -/
theorem storedConfig_eq (p : Prog) (c : ProgConfig) : storedConfig p c =
    if p = 0 then ⟨true, c.label, .critical, .standard, .interlock⟩ else c := rfl

theorem storedConfig_other {p : Prog} (h : p ≠ 0) (c : ProgConfig) : storedConfig p c = c := if_neg h

section body
variable {s : State} {p : Prog} {given : ProgConfig}

theorem setProgram_locked (other : p ≠ 0) (h : s.session.state ≠ .setup)
    (differs : given.configured ≠ (s.plannedConfig p).configured) : setProgram p given s = ⟨s, .locked, []⟩ :=
  if_pos ⟨h, other, by rwa [storedConfig_other other]⟩

variable (unlocked : p = 0 ∨ s.session.state = .setup ∨ given.configured = (s.plannedConfig p).configured)
include unlocked

/-- The lock stops a change of the configured value of a program other than Floor outside SETUP alone (R59). -/
theorem setProgram_unlocked : ¬ (s.session.state ≠ .setup ∧ p ≠ 0 ∧
    (storedConfig p given).configured ≠ (s.plannedConfig p).configured) := by
  rintro ⟨live, other, differs⟩
  rw [storedConfig_other other] at differs
  rcases unlocked with floor | setup | same
  · exact other floor
  · exact live setup
  · exact differs same

theorem setProgram_inUse (other : p ≠ 0) (old : (s.plannedConfig p).configured = true) (new : given.configured = false)
    (demand : 0 < (s.program p).demand) : setProgram p given s = ⟨s, .inUse, []⟩ :=
  (if_neg (setProgram_unlocked unlocked)).trans
    (if_pos ⟨other, old, by rw [storedConfig_other other, new]; decide, demand⟩)

theorem setProgram_written (free : p = 0 ∨ (s.plannedConfig p).configured = false ∨ given.configured = true ∨
    (s.program p).demand = 0) : setProgram p given s = ⟨s.writeProgram p (storedConfig p given),
      if storedConfig p given = given then .ok else .okClamped,
      (storedConfig p given).params ++ flagByte s.planner.hold.isSome⟩ := by
  refine (if_neg (setProgram_unlocked unlocked)).trans (if_neg ?_)
  rintro ⟨other, old, new, demand⟩
  rw [storedConfig_other other] at new
  rcases free with floor | gone | stays | unused
  · exact other floor
  · rw [gone] at old; cases old
  · exact new stays
  · omega

end body

section write
variable {s : State} {p : Prog} {c : ProgConfig}

theorem State.writeProgram_held {h : Shadow} (hold : s.planner.hold = some h) : s.writeProgram p c =
    s.setHold (some
      { programs := h.programs.set p c
        outputs := if (h.programs.get p).configured = true ∧ c.configured = false
          then h.outputs.map fun x => x.clear p else h.outputs }) := by
  unfold State.writeProgram Shadow.write
  rw [hold]
  simp only [Bool.and_eq_true, Bool.not_eq_true']

theorem ProgConfig.planDiffers_iff (new old : ProgConfig) : new.planDiffers old = true ↔
    new.configured ≠ old.configured ∨ new.priority ≠ old.priority ∨ new.quality ≠ old.quality := by
  simp [ProgConfig.planDiffers, or_assoc]

variable (hold : s.planner.hold = none)
include hold

theorem State.writeProgram_committed : s.writeProgram p c = s.commitProgram p c := by
  unfold State.writeProgram
  rw [hold]

theorem State.writeProgram_kept (configured : c.configured = (s.program p).config.configured)
    (priority : c.priority = (s.program p).config.priority) (quality : c.quality = (s.program p).config.quality) :
    s.writeProgram p c = s.setProgConfig p c := by
  have same : ¬ c.planDiffers (s.program p).config = true := by
    rw [ProgConfig.planDiffers_iff]
    simp [configured, priority, quality]
  rw [State.writeProgram_committed hold]
  unfold State.commitProgram
  dsimp only
  rw [if_neg same, if_neg (by rw [configured]; simp)]

theorem State.writeProgram_planned (stays : c.configured = true ∨ (s.program p).config.configured = false)
    (differs : c.configured ≠ (s.program p).config.configured ∨ c.priority ≠ (s.program p).config.priority ∨
      c.quality ≠ (s.program p).config.quality) : s.writeProgram p c = (s.setProgConfig p c).allocationPass := by
  rw [State.writeProgram_committed hold]
  unfold State.commitProgram
  dsimp only
  rw [if_pos ((ProgConfig.planDiffers_iff _ _).mpr differs), if_neg (by rcases stays with h | h <;> simp [h])]

theorem State.writeProgram_unconfigured (new : c.configured = false) (old : (s.program p).config.configured = true) :
    s.writeProgram p c = ((s.setProgConfig p c).unconfigure p).allocationPass := by
  rw [State.writeProgram_committed hold]
  unfold State.commitProgram
  dsimp only
  rw [if_pos ((ProgConfig.planDiffers_iff _ _).mpr (.inl (by simp [new, old]))), if_pos (by simp [new, old])]

end write

/-- SET PROGRAM by what its body does (R59). -/
theorem exec_setProgram {s : State} {p : Prog} {given : ProgConfig} {f : State → State} {r : Result} {fields : List Byte}
    (h : s.canTake .operator) (legal : given.label.legal) (hf : State.Apart f)
    (hb : ∀ k, setProgram p given (s.taken .operator 0x55#8 k) = ⟨f (s.taken .operator 0x55#8 k), r, fields⟩) :
    exec (.setProgram .operator (be 1 p.val ++ given.params)) s = .next (f (s.answered .operator 0x55#8 r fields)) :=
  exec_of_apart h (by simp [ProgConfig.params, be]) rfl rfl (setProgramParams?_bytes p legal) hf (hb _)

/-- SET PROGRAM taken, by what its write does (R59). -/
theorem exec_setProgram_written {s : State} {p : Prog} {given : ProgConfig} {f : State → State} (h : s.canTake .operator)
    (legal : given.label.legal)
    (unlocked : p = 0 ∨ s.session.state = .setup ∨ given.configured = (s.plannedConfig p).configured)
    (free : p = 0 ∨ (s.plannedConfig p).configured = false ∨ given.configured = true ∨ (s.program p).demand = 0)
    (hf : State.Apart f)
    (hb : ∀ k, (s.taken .operator 0x55#8 k).writeProgram p (storedConfig p given) = f (s.taken .operator 0x55#8 k)) :
    exec (.setProgram .operator (be 1 p.val ++ given.params)) s =
      .next (f (s.answered .operator 0x55#8 (if storedConfig p given = given then .ok else .okClamped)
        ((storedConfig p given).params ++ flagByte s.planner.hold.isSome))) := by
  refine exec_setProgram h legal hf fun k => ?_
  rw [setProgram_written (by rwa [State.taken_session, State.taken_plannedConfig])
    (by rwa [State.taken_plannedConfig, State.taken_program]), hb, State.taken_planner]

end Sys2Proof.Machine

namespace Sys2Proof.Proofs
open Sys2Proof Sys2Proof.Machine

/-- Settles O37: the outputs and the selections row by row, and SET PROGRAM by its refusals and by the four ways of its write
(`State.writeProgram_held`, `State.writeProgram_kept`, `State.writeProgram_planned`, `State.writeProgram_unconfigured`). -/
theorem setProgramWritesTheRecord : Obligations.SetProgramWritesTheRecord := by
  refine ⟨fun x p => ⟨Outputs.clear_both, Outputs.clear_first, Outputs.clear_second, Outputs.clear_neither⟩, ?_, ?_, ?_⟩
  · rintro s t p rfl
    exact ⟨s.clearOutputs_boothConfig p, rfl⟩
  · rintro s t rfl
    exact ⟨s.dropSelections_desk, rfl⟩
  · intro s p given c r fields h legal stored result answer
    rw [← storedConfig_eq] at stored
    subst stored result answer
    refine ⟨fun other live differs => ?_, fun unlocked => ⟨fun other old new demand => ?_, fun free =>
      ⟨fun shadow hold => ?_, fun hold => ⟨fun configured priority quality => ?_, fun stays differs => ?_,
        fun new old => ?_⟩⟩⟩⟩
    · exact exec_setProgram h legal State.Apart.id fun k => setProgram_locked other (by rwa [State.taken_session])
        (by rwa [State.taken_plannedConfig])
    · exact exec_setProgram h legal State.Apart.id fun k => setProgram_inUse
        (by rwa [State.taken_session, State.taken_plannedConfig]) other (by rwa [State.taken_plannedConfig]) new
        (by rwa [State.taken_program])
    · exact exec_setProgram_written h legal unlocked free (State.setHold_apart _) fun k =>
        State.writeProgram_held (by rwa [State.taken_planner])
    · exact exec_setProgram_written h legal unlocked free (State.setProgConfig_apart _ _) fun k =>
        State.writeProgram_kept (by rwa [State.taken_planner]) (by rwa [State.taken_program])
          (by rwa [State.taken_program]) (by rwa [State.taken_program])
    · exact exec_setProgram_written h legal unlocked free
        (State.allocationPass_placeAnswer.comp (State.setProgConfig_apart _ _)) fun k =>
          State.writeProgram_planned (by rwa [State.taken_planner]) (by rwa [State.taken_program])
            (by rwa [State.taken_program])
    · exact exec_setProgram_written (f := fun s => ((s.setProgConfig p (storedConfig p given)).unconfigure p).allocationPass)
        h legal unlocked free
        (State.allocationPass_placeAnswer.comp ((State.unconfigure_apart p).comp (State.setProgConfig_apart p _))) fun k =>
          State.writeProgram_unconfigured (by rwa [State.taken_planner]) new (by rwa [State.taken_program])

end Sys2Proof.Proofs
end
section
/-! SUPPORT. Scope, the plan hold and its release (R64, R66): the shadow as a copy of the committed configuration, the program
that stops a release, the records that a release changes, and what it does to the programs, the booths and the desks. -/

namespace Sys2Proof.Machine

/-! ### PLAN HOLD (R64) -/

theorem State.makeShadow_programs (s : State) (p : Prog) : s.makeShadow.programs.get p = (s.program p).config :=
  Table.get_map ..

theorem State.makeShadow_outputs (s : State) (b : Fin 24) : s.makeShadow.outputs.get b = (s.boothConfig b).outputs :=
  Table.get_map ..

theorem exec_planHold_busy {s : State} (h : s.canTake .operator) (hold : s.planner.hold ≠ none) :
    exec (.planHold .operator []) s = .next (s.answered .operator 0x56#8 .busy []) :=
  exec_of_plain h (by simp) rfl rfl (parsed := noParams? []) rfl
    (if_pos (by rw [State.taken_planner]; exact Option.isSome_iff_ne_none.mpr hold))

/-- PLAN HOLD without a hold makes the copy of the committed configuration (R64). -/
theorem exec_planHold {s : State} (h : s.canTake .operator) (hold : s.planner.hold = none) :
    exec (.planHold .operator []) s = .next ((s.answered .operator 0x56#8 .ok []).setHold (some s.makeShadow)) :=
  exec_of_apart (f := fun u => u.setHold (some s.makeShadow)) h (by simp) rfl rfl (parsed := noParams? []) rfl
    (State.setHold_apart _) (if_neg (by rw [State.taken_planner, hold]; decide))

/-! ### The program that stops a release (R66) -/

section blocker
variable {s : State} {h : Shadow}

/-- The lowest program that the release would unconfigure and that has demand is the one that it names (R66). -/
theorem State.releaseBlocker_eq_some {p : Prog} (old : (s.program p).config.configured = true)
    (new : (h.programs.get p).configured = false) (demand : 0 < (s.program p).demand)
    (lowest : ∀ q < p, (s.program q).config.configured = true → (h.programs.get q).configured = false →
      (s.program q).demand = 0) : s.releaseBlocker h = some p := by
  refine List.find?_eq_some_iff_getElem.mpr ⟨by simp [old, new, demand], p.val, by simp, by simp, fun j below => ?_⟩
  have free := lowest ⟨j, by omega⟩ below
  simp only [List.getElem_finRange, Fin.cast_mk]
  grind

theorem State.releaseBlocker_eq_none (free : ∀ p, (s.program p).config.configured = true →
    (h.programs.get p).configured = false → (s.program p).demand = 0) : s.releaseBlocker h = none := by
  refine List.find?_eq_none.mpr fun p _ blocks => ?_
  simp only [Bool.and_eq_true, Bool.not_eq_true', decide_eq_true_eq] at blocks
  obtain ⟨⟨old, new⟩, demand⟩ := blocks
  have := free p old new
  omega

end blocker

/-! ### What a release changes (R66) -/

theorem State.programsChanged_eq (s : State) (h : Shadow) : s.programsChanged h =
    (List.finRange 32).countP fun p => (s.program p).config ≠ h.programs.get p := by
  rw [List.countP_eq_length_filter]
  simp only [ne_eq, decide_not, ← beq_eq_decide]
  rfl

theorem State.boothsChanged_eq (s : State) (h : Shadow) : s.boothsChanged h =
    (List.finRange 24).countP fun b => (s.boothConfig b).outputs ≠ h.outputs.get b := by
  rw [List.countP_eq_length_filter]
  simp only [ne_eq, decide_not, ← beq_eq_decide]
  rfl

theorem State.applyShadow_program (s : State) (h : Shadow) (p : Prog) : (s.applyShadow h).program p =
    { s.program p with
      config := h.programs.get p
      radiation := if (s.program p).config.configured = true ∧ (h.programs.get p).configured = false then .unconfigured
        else (s.program p).radiation } := by
  refine (Table.get_mapIdx ..).trans ?_
  simp only [Bool.and_eq_true, Bool.not_eq_true']
  rfl

theorem State.applyShadow_boothConfig (s : State) (h : Shadow) (b : Fin 24) : (s.applyShadow h).boothConfig b =
    { s.boothConfig b with outputs := h.outputs.get b } := Table.get_mapIdx ..

theorem State.revertAll_desk (s : State) (d : DeskId) : s.revertAll.desk d =
    { s.desk d with selected := (s.boothConfig d.booth).outputs.revert (s.desk d).selected } := by
  refine (Table.get_mapIdx ..).trans ?_
  rw [deskAt_idx]
  rfl

/-- After the two turns to floor a desk selects what it selected, unless that is an output of its own booth or a program
that is not configured (R4, R62, R66). -/
theorem State.selected_of_release (s : State) (d : DeskId) : (s.revertAll.dropSelections.desk d).selected =
    if (s.boothConfig d.booth).outputs.a = some (s.desk d).selected ∨
      (s.boothConfig d.booth).outputs.b = some (s.desk d).selected ∨
      (s.program (s.desk d).selected).config.configured = false then 0 else (s.desk d).selected := by
  rw [State.dropSelections_desk, State.revertAll_desk]
  show (if (s.boothConfig d.booth).outputs.revert (s.desk d).selected ≠ 0 ∧
      (s.program ((s.boothConfig d.booth).outputs.revert (s.desk d).selected)).config.configured = false then 0
    else (s.boothConfig d.booth).outputs.revert (s.desk d).selected) = _
  by_cases floor : (s.desk d).selected = 0
  · rw [floor, show (s.boothConfig d.booth).outputs.revert 0 = 0 from if_neg fun k => k.1 rfl]
    simp
  · by_cases own : (s.boothConfig d.booth).outputs.names (s.desk d).selected = true
    · rw [show (s.boothConfig d.booth).outputs.revert (s.desk d).selected = 0 from if_pos ⟨floor, own⟩]
      rw [Outputs.names_iff] at own
      rw [if_neg (by simp), if_pos (by rw [← or_assoc]; exact .inl own)]
    · rw [show (s.boothConfig d.booth).outputs.revert (s.desk d).selected = (s.desk d).selected from
        if_neg fun k => own k.2]
      rw [Outputs.names_iff] at own
      simp only [floor, ne_eq, not_false_eq_true, true_and, ← or_assoc, own, false_or]

/-! ### PLAN RELEASE (R66) -/

theorem State.applyShadow_apart (h : Shadow) : State.Apart fun s => s.applyShadow h := fun s p c r l => by
  cases p <;> rfl

theorem State.revertAll_apart : State.Apart State.revertAll := fun s p c r l => by
  cases p <;> rfl

theorem State.releasePlan_apart (h : Shadow) : State.Apart fun s => s.releasePlan h :=
  (State.setHold_apart none).comp (State.allocationPass_placeAnswer.comp
    (State.dropSelections_apart.comp (State.revertAll_apart.comp (State.applyShadow_apart h))).derivationPass)

theorem State.taken_releaseBlocker (s : State) (p : Port) (c : Byte) (l : List Byte) (h : Shadow) :
    (s.taken p c l).releaseBlocker h = s.releaseBlocker h := by cases p <;> rfl

theorem State.taken_programsChanged (s : State) (p : Port) (c : Byte) (l : List Byte) (h : Shadow) :
    (s.taken p c l).programsChanged h = s.programsChanged h := by cases p <;> rfl

theorem State.taken_boothsChanged (s : State) (p : Port) (c : Byte) (l : List Byte) (h : Shadow) :
    (s.taken p c l).boothsChanged h = s.boothsChanged h := by cases p <;> rfl

section release
variable {s : State} (ready : s.canTake .operator)
include ready

theorem exec_planRelease_notActive (hold : s.planner.hold = none) :
    exec (.planRelease .operator []) s = .next (s.answered .operator 0x57#8 .notActive []) :=
  exec_of_plain ready (by simp) rfl rfl (parsed := noParams? []) rfl (by
    unfold planRelease
    rw [State.taken_planner, hold]
    rfl)

variable {h : Shadow} (hold : s.planner.hold = some h)
include hold

theorem exec_planRelease_inUse {p : Prog} (blocker : s.releaseBlocker h = some p) :
    exec (.planRelease .operator []) s = .next (s.answered .operator 0x57#8 .inUse (be 1 p.val)) :=
  exec_of_plain ready (by simp) rfl rfl (parsed := noParams? []) rfl (by
    unfold planRelease
    rw [State.taken_planner, hold]
    dsimp only
    rw [State.taken_releaseBlocker, blocker])

theorem exec_planRelease (free : s.releaseBlocker h = none) : exec (.planRelease .operator []) s =
    .next ((s.answered .operator 0x57#8 .ok (be 1 (s.programsChanged h) ++ be 1 (s.boothsChanged h))).releasePlan h) :=
  exec_of_apart (f := fun u => u.releasePlan h) ready (by simp) rfl rfl (parsed := noParams? []) rfl
    (State.releasePlan_apart h) (by
      unfold planRelease
      rw [State.taken_planner, hold]
      dsimp only
      rw [State.taken_releaseBlocker, free, State.taken_programsChanged, State.taken_boothsChanged])

end release

end Sys2Proof.Machine

namespace Sys2Proof.Proofs
open Sys2Proof Sys2Proof.Machine

/-- Settles O38: the two commands by whether a hold stands and whether a program stops the release
(`State.releaseBlocker_eq_some`, `State.releaseBlocker_eq_none`), and the release row by row. -/
theorem planHoldAndReleaseApplyTheShadow : Obligations.PlanHoldAndReleaseApplyTheShadow := by
  refine ⟨fun s p params h other short => ⟨exec_of_wrongPort h short rfl other, exec_of_wrongPort h short rfl other⟩,
    fun s h => ⟨exec_planHold_busy h, fun hold =>
      ⟨s.makeShadow, s.makeShadow_programs, s.makeShadow_outputs, exec_planHold h hold⟩⟩,
    fun s ready => ⟨exec_planRelease_notActive ready, fun h hold => ⟨fun p old new demand lowest => ?_, fun free => ?_⟩⟩,
    fun s h p b d => ⟨s.applyShadow_program h p, s.applyShadow_boothConfig h b, s.selected_of_release d⟩⟩
  · exact exec_planRelease_inUse ready hold (State.releaseBlocker_eq_some old new demand lowest)
  · rw [← State.programsChanged_eq, ← State.boothsChanged_eq]
    exact exec_planRelease ready hold (State.releaseBlocker_eq_none free)

end Sys2Proof.Proofs
end
section
/-! SUPPORT. Scope, what a port reads when it takes a request (R165, R167, R177, R188): the passes keep it, so that a port takes
the next request after PLAN RELEASE and PLAN ABANDON; and PLAN ABANDON (R67). -/

namespace Sys2Proof.Machine

/-! ### What a port reads when it takes a request -/

/-- Power, RESET_N, the start-up, the waiting self-reset and the three request slots. -/
def State.taking (s : State) : Bool × Bool × Startup × Bool × (Port → Option Request) :=
  (s.powered, s.resetAsserted, s.startup, s.ports.selfReset, fun p => (s.port p).request)

theorem State.canTake_of_taking {s t : State} (h : t.taking = s.taking) {p : Port} (k : s.canTake p) : t.canTake p := by
  simp only [State.taking, Prod.mk.injEq, funext_iff] at h
  obtain ⟨powered, reset, startup, selfReset, request⟩ := h
  unfold State.canTake at k ⊢
  rwa [powered, reset, startup, selfReset, request]

theorem State.answered_canTake {s : State} {p : Port} (h : s.canTake p) (c : Byte) (r : Result) (l : List Byte) :
    (s.answered p c r l).canTake p := by
  obtain ⟨powered, reset, startup, -, selfReset⟩ := h
  exact ⟨by simpa [State.answered] using powered, by simpa [State.answered] using reset,
    by simpa [State.answered] using startup, by simp [State.answered], by simpa [State.answered] using selfReset⟩

section notices
variable (s : State)

theorem State.setPort_taking {p : Port} {v : PortState} (h : v.request = (s.port p).request) :
    (s.setPort p v).taking = s.taking := by
  simp only [State.taking, State.setPort_powered, State.setPort_resetAsserted, State.setPort_startup,
    State.setPort_selfReset, Prod.mk.injEq, true_and]
  funext q
  by_cases same : q = p
  · rw [same, State.setPort_port, h]
  · rw [State.setPort_port_other _ _ _ _ same]

theorem State.offer_taking (p : Port) (n : Notice) : (s.offer p n).1.taking = s.taking := by
  rcases s.offer_cases p n with ⟨-, masked⟩ | ⟨-, -, joined⟩ | ⟨-, -, dropped⟩
  · rw [masked]
  · rw [joined]
    exact s.setPort_taking rfl
  · rw [dropped]
    exact s.setPort_taking rfl

theorem State.raiseNow_taking (f : FaultKind) (c : Nat) : (s.raiseNow f c).taking = s.taking := by
  rw [State.raiseNow_eq]
  dsimp only
  have offered := (s.withFaults (s.faults.take f c s.session.clock).1).offer_taking .operator
    (raisedNotice f c s.session.clock)
  split
  · split
    · exact offered
    · exact offered
  · rfl

theorem State.raiseFault_taking (f : FaultKind) (c : Nat) : (s.raiseFault f c).taking = s.taking := by
  unfold State.raiseFault
  split
  · rfl
  · exact s.raiseNow_taking f c

theorem State.foldl_taking {α : Type} {f : State → α → State} (hf : ∀ u a, (f u a).taking = u.taking) (l : List α) :
    (l.foldl f s).taking = s.taking := by
  induction l generalizing s with
  | nil => rfl
  | cons a rest ih => exact (ih _).trans (hf s a)

theorem State.offerAll_taking (ports : List Port) (n : Notice) : (s.offerAll ports n).1.taking = s.taking := by
  induction ports generalizing s with
  | nil => rfl
  | cons p rest ih => exact (ih _).trans (s.offer_taking p n)

theorem State.notify_taking (k : NoticeKind) (a b c d : Nat) : (s.notify k a b c d).taking = s.taking :=
  (State.foldl_taking _ (fun u _ => u.raiseFault_taking _ _) _).trans (s.offerAll_taking _ _)

/-! ### The passes -/

theorem State.relayNotice_taking (d : DeskId) (old : Relay) (desk : Desk) : (s.relayNotice d old desk).taking = s.taking := by
  unfold State.relayNotice
  split
  · exact s.notify_taking ..
  · exact s.notify_taking ..
  · rfl
  · rfl

theorem State.derivationPass_taking : s.derivationPass.taking = s.taking := by
  rw [State.derivationPass_eq]
  exact State.foldl_taking _ (fun u _ => u.relayNotice_taking ..) _

theorem State.passNotice_taking (p : Prog) (old new : Radiation) (r : Program) (budget : Nat) :
    (s.passNotice p old new r budget).taking = s.taking := by
  unfold State.passNotice
  dsimp only
  split
  · split
    · exact (State.notify_taking ..).trans (s.notify_taking ..)
    · exact s.notify_taking ..
  · split
    · exact s.notify_taking ..
    · rfl

theorem State.allocationPass_taking : s.allocationPass.taking = s.taking := by
  have notices : (s.planned.passNotices s.programs s.plannedPrograms s.budget).taking = s.taking :=
    State.foldl_taking _ (fun u _ => u.passNotice_taking ..) _
  rw [State.allocationPass_eq]
  split
  · exact (State.raiseFault_taking ..).trans notices
  · exact notices

theorem State.setHold_taking (h : Option Shadow) : (s.setHold h).taking = s.taking := rfl

theorem State.releasePlan_taking (h : Shadow) : (s.releasePlan h).taking = s.taking := by
  unfold State.releasePlan
  rw [State.setHold_taking, State.allocationPass_taking, State.derivationPass_taking]
  rfl

end notices

/-! ### PLAN ABANDON (R67) -/

theorem exec_planAbandon_notActive {s : State} (ready : s.canTake .operator) (hold : s.planner.hold = none) :
    exec (.planAbandon .operator []) s = .next (s.answered .operator 0x58#8 .notActive []) :=
  exec_of_plain ready (by simp) rfl rfl (parsed := noParams? []) rfl
    (if_neg (by rw [State.taken_planner, hold]; decide))

theorem exec_planAbandon {s : State} (ready : s.canTake .operator) (hold : s.planner.hold ≠ none) :
    exec (.planAbandon .operator []) s = .next ((s.answered .operator 0x58#8 .ok []).setHold none) :=
  exec_of_apart (f := fun u => u.setHold none) ready (by simp) rfl rfl (parsed := noParams? []) rfl
    (State.setHold_apart none) (if_pos (by rw [State.taken_planner]; exact Option.isSome_iff_ne_none.mpr hold))

end Sys2Proof.Machine

namespace Sys2Proof.Proofs
open Sys2Proof Sys2Proof.Machine

/-- Settles O39: PLAN ABANDON by whether a hold stands, and the PLAN HOLD after it and after PLAN RELEASE because neither
holds the port up (`State.canTake_of_taking`) and each ends the hold. -/
theorem planAbandonDiscardsTheShadow : Obligations.PlanAbandonDiscardsTheShadow := by
  refine ⟨fun s p params h other short => exec_of_wrongPort h short rfl other, fun s h ready hold free => ?_,
    fun s ready => ⟨exec_planAbandon_notActive ready, fun hold => ?_⟩⟩
  · refine ⟨_, exec_planRelease ready hold (State.releaseBlocker_eq_none free), rfl, _, State.makeShadow_programs _,
      State.makeShadow_outputs _, exec_planHold ?_ rfl⟩
    exact State.canTake_of_taking (State.releasePlan_taking _ h) (State.answered_canTake ready ..)
  · refine ⟨_, exec_planAbandon ready hold, rfl, s.makeShadow, s.makeShadow_programs, s.makeShadow_outputs,
      (exec_planHold ?_ rfl).trans ?_⟩
    · exact State.canTake_of_taking (State.setHold_taking _ none) (State.answered_canTake ready ..)
    · rfl

end Sys2Proof.Proofs
end

section
/-! SUPPORT. Scope, the Distribution Link's records (R82 to R88, R90): the key that the link chooses and what clearing it leaves,
and the three events that take a send opportunity, each as the opportunity taken in the state that it leaves. -/

namespace Sys2Proof.Machine

/-! ### The pending set (R81) -/

/-- Whether a key is in the pending set. -/
def Link.holds (k : Link) (key : Key) : Bool :=
  match key with
  | .plan => k.planKey
  | .program p => k.programKeys.get p
  | .desk i => k.deskKeys.get i

theorem Table.count_set_false {n : Nat} {t : Table Bool n} {i : Fin n} (h : t.get i = true) :
    (t.set i false).rows.count true + 1 = t.rows.count true := by
  have row : t.rows[i.val]'(t.size.symm ▸ i.isLt) = true := h
  have pos : 0 < t.rows.count true := List.count_pos_iff.mpr (row ▸ List.getElem_mem _)
  show (t.rows.set i.val false).count true + 1 = _
  rw [List.count_set (t.size.symm ▸ i.isLt), row]
  simp only [beq_self_eq_true, if_true]
  exact Nat.sub_add_cancel pos

theorem Link.clearKey_pendingCount {k : Link} {key : Key} (h : k.holds key = true) :
    (k.clearKey key).pendingCount + 1 = k.pendingCount := by
  unfold Link.pendingCount
  cases key with
  | plan =>
    have plan : k.planKey = true := h
    simp only [Link.clearKey, plan, if_true, Bool.false_eq_true, if_false]
    omega
  | program p =>
    rw [← Table.count_set_false (t := k.programKeys) h]
    exact Nat.add_right_comm _ _ 1
  | desk i =>
    rw [← Table.count_set_false (t := k.deskKeys) h]
    rfl

/-! ### The choice of a key (R82) -/

section choice
variable {k : Link}

theorem Link.choose_plan (plan : k.planKey = true) : k.choose = some .plan := if_pos plan

theorem Link.choose_program (plan : k.planKey = false) {p : Prog} (pending : k.programKeys.get p = true)
    (lowest : ∀ q < p, k.programKeys.get q = false) : k.choose = some (.program p) := by
  have first : (List.finRange 32).find? (fun p => k.programKeys.get p) = some p :=
    Fin.find?_eq_find?_finRange.symm.trans (Fin.find?_eq_some_iff.mpr ⟨pending, lowest⟩)
  simp [Link.choose, plan, first]

theorem Link.choose_desk (plan : k.planKey = false) (programs : ∀ p, k.programKeys.get p = false) {i : Fin 72}
    (pending : k.deskKeys.get i = true) (lowest : ∀ j < i, k.deskKeys.get j = false) :
    k.choose = some (.desk i) := by
  have noProgram : (List.finRange 32).find? (fun p => k.programKeys.get p) = none :=
    Fin.find?_eq_find?_finRange.symm.trans (Fin.find?_eq_none_iff.mpr programs)
  have first : (List.finRange 72).find? (fun i => k.deskKeys.get i) = some i :=
    Fin.find?_eq_find?_finRange.symm.trans (Fin.find?_eq_some_iff.mpr ⟨pending, lowest⟩)
  simp [Link.choose, plan, noProgram, first]

theorem Link.holds_of_choose {key : Key} (chosen : k.choose = some key) : k.holds key = true := by
  unfold Link.choose at chosen
  split at chosen
  · cases chosen
    assumption
  · split at chosen
    · cases chosen
      rename_i p first
      exact List.find?_some (p := fun p => k.programKeys.get p) first
    · obtain ⟨i, first, rfl⟩ := Option.map_eq_some_iff.mp chosen
      exact List.find?_some (p := fun i => k.deskKeys.get i) first

end choice

/-! ### The opportunity taken, and the three events that take it -/

section events
variable {s : State}

theorem exec_sendOpportunity (on : s.powered = true) : exec .sendOpportunity s = .next s.takeOpportunity :=
  congrArg _ (if_pos on)

/-- The chosen key is cleared, its record goes into transmission, and no stall watch runs on a link that sends (R82, R88). -/
theorem exec_sendOpportunity_of_choose (on : s.powered = true) (idle : s.link.phase = .idle)
    (ready : s.link.ready = true) {key : Key} (chosen : s.link.choose = some key) :
    exec .sendOpportunity s = .next { s with link := { s.link.clearKey key with
      phase := .sending (s.buildRecord key)
      readyRead := true
      stallSince := none } } := by
  have pending : s.link.anyPending = true := by rw [← Link.choose_isSome, chosen]; rfl
  obtain ⟨key', chosen', sends⟩ := State.takeOpportunity_sends s ((Link.opportunity_iff _).mpr ⟨idle, ready, pending⟩)
  obtain rfl : key = key' := Option.some.inj (chosen.symm.trans chosen')
  rw [exec_sendOpportunity on, sends, State.updateLink, Link.watched_eq]
  simp

/-- Without main power, an IDLE link, READY and a pending key there is no opportunity to take (R82; log entries 9 and 14). -/
theorem exec_sendOpportunity_of_none (h : s.powered = false ∨ s.link.phase ≠ .idle ∨ s.link.ready = false ∨
    s.link.anyPending = false) : exec .sendOpportunity s = .next s := by
  cases on : s.powered with
  | false => exact congrArg _ (if_neg (by simp [on]))
  | true =>
    have without : s.link.opportunity = false := by
      rw [← Bool.not_eq_true, Link.opportunity_iff]
      grind
    rw [exec_sendOpportunity on, State.takeOpportunity_of_none s without]

/-- TRANSMISSION_COMPLETE leaves an IDLE link, and the next record follows where an opportunity stands then (R82). -/
theorem exec_transmissionComplete (on : s.powered = true) {r : Record} (sending : s.link.phase = .sending r) :
    exec .transmissionComplete s = exec .sendOpportunity (s.updateLink fun k => k.complete r) := by
  rw [exec_sendOpportunity (s := s.updateLink _) on]
  show execTransmissionComplete s = _
  unfold execTransmissionComplete
  rw [on, sending]

/-- READY_ASSERT ends the stall watch, and a record starts where an opportunity stands then (R87). -/
theorem exec_readyAssert (on : s.powered = true) :
    exec .readyAssert s = exec .sendOpportunity (s.updateLink fun k => k.seeReady true) := by
  rw [exec_sendOpportunity (s := s.updateLink _) on]
  exact congrArg _ (if_pos on)

end events

/-- The link after a record taken whole: its bytes are the last sent, any episode has ended, and the stall watch starts where
READY is deasserted and a key is pending (R82, R87, R88). -/
theorem Link.complete_watched (k : Link) (r : Record) (now : Nat) : (k.complete r).watched now = { k with
    phase := .idle
    readyRead := k.ready
    episode := false
    lastSent := r.bytes
    stallSince := if k.anyPending = true ∧ k.ready = false then some (k.stallSince.getD now) else none } := by
  rw [Link.watched_eq, show (k.complete r).anyPending = k.anyPending from rfl]
  simp [Link.complete]

/-- READY asserted: no stall watch runs (R87, R88). -/
theorem Link.seeReady_true_watched (k : Link) (now : Nat) : (k.seeReady true).watched now = { k with
    ready := true
    readyRead := if k.phase = .idle then true else k.readyRead
    stallSince := none } := by
  rw [Link.watched_eq]
  simp [Link.seeReady]

end Sys2Proof.Machine

namespace Sys2Proof.Proofs
open Sys2Proof Sys2Proof.Machine

/-- Settles O43: the key chosen by `Link.choose_plan`, `Link.choose_program` and `Link.choose_desk`, a record's bytes by cases
on the record, and the events that take an opportunity by `exec_transmissionComplete` and `exec_readyAssert`; that the idle
step brings one left standing is O1's. -/
theorem theLinkSendsWhatItsKeysName : Obligations.TheLinkSendsWhatItsKeysName := by
  refine ⟨fun s empty on idle ready pending => ?_,
    fun s on idle ready => ⟨fun plan carried list => ?_, fun plan p key lowest => ?_, fun plan programs d key lowest => ?_⟩,
    fun s => exec_sendOpportunity_of_none, fun s u r on sending after => ?_, fun s u on after => ?_⟩
  · obtain ⟨front, stands, -, -⟩ := stepRunsFrontCommand
    obtain ⟨key, chosen⟩ := Option.isSome_iff_exists.mp (s.link.choose_isSome.trans pending)
    have same : { s with pending := [] } = s := by rw [← empty]
    exact ⟨_, _, s.buildRecord key, stands s empty on idle ready pending,
      (front _ _ _ rfl).trans ((congrArg _ same).trans (exec_sendOpportunity_of_choose on idle ready chosen)), rfl, rfl,
      Link.clearKey_pendingCount (Link.holds_of_choose chosen), empty⟩
  · have present : carried = carriedList s.programs := by
      rw [list]
      refine List.filterMap_congr fun p _ => ?_
      show _ = (carriedQuality (s.program p)).map _
      unfold carriedQuality
      cases (s.program p).radiation <;> rfl
    rw [exec_sendOpportunity_of_choose on idle ready (Link.choose_plan plan), present]
    rfl
  · rw [exec_sendOpportunity_of_choose on idle ready (Link.choose_program plan key lowest)]
    rfl
  · have first : ∀ j < d.idx, s.link.deskKeys.get j = false := fun j below => by
      rw [← idx_deskAt j] at below ⊢
      exact lowest _ below
    rw [exec_sendOpportunity_of_choose on idle ready (Link.choose_desk plan programs key first)]
    simp only [State.buildRecord, deskAt_idx]
    rfl
  · have bytes : u.link.lastSent = r.bytes := by
      rw [after]
      cases r with
      | plan bank budget carried => rfl
      | route p source level radiation => cases source <;> rfl
      | feed d x => simp [Record.bytes, deskBytes, feedKindBytes]
    have completed : u = s.updateLink fun k => k.complete r := by
      rw [State.updateLink, Link.complete_watched, ← bytes, after]
    rw [exec_transmissionComplete on sending, ← completed]
    refine ⟨fun deasserted => exec_sendOpportunity_of_none (.inr (.inr (.inl ?_))), fun _ => rfl⟩
    rw [after]
    exact deasserted
  · have asserted : exec .readyAssert s = exec .sendOpportunity u := by
      rw [exec_readyAssert on, State.updateLink, Link.seeReady_true_watched, after]
    refine ⟨asserted, fun h => asserted.trans (exec_sendOpportunity_of_none (.inr ?_))⟩
    rw [after]
    exact h.imp id .inr

end Sys2Proof.Proofs
end

section
/-! SUPPORT. Scope, the registry's tables (R92, R94): what a table of numbered records finds after a record is changed, removed
or put in its place, and what each operation of the Receiver Registry leaves of the records, their numbers and the slot map. -/

namespace Sys2Proof.Machine

/-! ### Records found by their number -/

section keyed
variable {α : Type} {key : α → Nat}

theorem find?_key {l : List α} {n : Nat} {a : α} (h : l.find? (fun b => key b == n) = some a) : key a = n := by
  simpa using List.find?_some h

/-- In a table in ascending order a record is what its number finds. -/
theorem mem_iff_find? {l : List α} (sorted : l.Pairwise fun a b => key a < key b) (a : α) :
    a ∈ l ↔ l.find? (fun b => key b == key a) = some a := by
  refine ⟨fun mem => ?_, List.mem_of_find?_eq_some⟩
  induction l with
  | nil => cases mem
  | cons b rest ih =>
    obtain ⟨first, tail⟩ := List.pairwise_cons.mp sorted
    rcases List.mem_cons.mp mem with rfl | later
    · simp
    · rw [List.find?_cons_of_neg (by simpa using (first a later).ne)]
      exact ih tail later

/-- The records numbered `n` changed, their numbers kept. -/
theorem find?_modify {f : α → α} (hf : ∀ a, key (f a) = key a) (l : List α) (n m : Nat) :
    (l.map fun a => if key a = n then f a else a).find? (fun a => key a == m) =
      if m = n then (l.find? fun a => key a == n).map f else l.find? fun a => key a == m := by
  induction l with
  | nil => simp
  | cons a rest ih =>
    rw [List.map_cons, List.find?_cons, List.find?_cons, List.find?_cons, ih]
    have kept : key (if key a = n then f a else a) = key a := by split <;> simp [hf]
    rw [kept]
    by_cases same : key a = n
    · by_cases wanted : m = n
      · simp [same, wanted]
      · simp [same, wanted, beq_eq_false_iff_ne.mpr (Ne.symm wanted)]
    · by_cases wanted : m = n
      · simp [wanted, beq_eq_false_iff_ne.mpr same]
      · simp [same, wanted]

/-- The records numbered `n` removed. -/
theorem find?_remove (l : List α) (n m : Nat) :
    (l.filter fun a => key a ≠ n).find? (fun a => key a == m) = if m = n then none else l.find? fun a => key a == m := by
  rw [List.find?_filter]
  split
  · next same =>
    subst same
    simp
  · next other =>
    congr 1
    funext a
    by_cases here : key a = m <;> simp [here, other]

theorem insertAsc_perm (a : α) (l : List α) : (insertAsc key a l).Perm (a :: l) := by
  induction l with
  | nil => exact .refl _
  | cons b rest ih =>
    unfold insertAsc
    split
    · exact .refl _
    · exact (ih.cons b).trans (.swap a b rest)

/-- A record put in its place by its number is found by it, and the others as before. -/
theorem find?_insertAsc {a : α} {l : List α} (fresh : ∀ b ∈ l, key b ≠ key a) (m : Nat) :
    (insertAsc key a l).find? (fun b => key b == m) = if m = key a then some a else l.find? fun b => key b == m := by
  induction l with
  | nil =>
    by_cases h : m = key a
    · simp [insertAsc, h]
    · simp [insertAsc, h, Ne.symm h]
  | cons b rest ih =>
    have other := fresh b (List.mem_cons_self ..)
    unfold insertAsc
    split
    · by_cases h : m = key a
      · simp [h]
      · simp [List.find?_cons, h, Ne.symm h]
    · rw [List.find?_cons, ih fun c hc => fresh c (List.mem_cons_of_mem _ hc), List.find?_cons]
      by_cases h : m = key a
      · simp [h, beq_eq_false_iff_ne.mpr other]
      · simp [h]

/-- A record put in its place by a number of its own leaves the order ascending. -/
theorem insertAsc_pairwise {a : α} {l : List α} (sorted : l.Pairwise fun b c => key b < key c)
    (fresh : ∀ b ∈ l, key b ≠ key a) : (insertAsc key a l).Pairwise fun b c => key b < key c := by
  induction l with
  | nil => exact List.pairwise_singleton ..
  | cons b rest ih =>
    obtain ⟨first, tail⟩ := List.pairwise_cons.mp sorted
    have other := fresh b (List.mem_cons_self ..)
    unfold insertAsc
    split
    · next below =>
      refine List.pairwise_cons.mpr ⟨fun c hc => ?_, sorted⟩
      rcases List.mem_cons.mp hc with rfl | later
      · exact below
      · exact below.trans (first c later)
    · refine List.pairwise_cons.mpr ⟨fun c hc => ?_, ih tail fun c hc => fresh c (List.mem_cons_of_mem _ hc)⟩
      rcases List.mem_cons.mp ((insertAsc_perm a rest).mem_iff.mp hc) with rfl | later
      · omega
      · exact first c later

/-- Between the records below its number and those above it a record has its place. -/
theorem insertAsc_between {a : α} {l1 l2 : List α} (below : ∀ b ∈ l1, key b < key a) (above : ∀ b ∈ l2, key a < key b) :
    insertAsc key a (l1 ++ l2) = l1 ++ a :: l2 := by
  induction l1 with
  | nil =>
    cases l2 with
    | nil => rfl
    | cons b rest => exact if_pos (above b (List.mem_cons_self ..))
  | cons b rest ih =>
    have first := below b (List.mem_cons_self ..)
    show (if key a < key b then _ else b :: insertAsc key a (rest ++ l2)) = _
    rw [if_neg (by omega), ih fun c hc => below c (List.mem_cons_of_mem _ hc)]
    rfl

end keyed

theorem Table.set_set {α : Type} {n : Nat} (t : Table α n) (i : Fin n) (a b : α) : (t.set i a).set i b = t.set i b := by
  unfold Table.set
  simp

theorem Table.get_set {α : Type} {n : Nat} (t : Table α n) (i j : Fin n) (a : α) :
    (t.set i a).get j = if j = i then a else t.get j := by
  split
  · next same => rw [same, Table.get_set_same]
  · next other => exact Table.get_set_other t i j a (Ne.symm other)

/-! ### The receiver records (R92) -/

section receivers
variable (s : State)

theorem State.receiver_number {n : Nat} {r : Receiver} (h : s.receiver n = some r) : r.number = n :=
  find?_key (key := Receiver.number) h

/-- The record of receiver `n` changed, its number kept. -/
theorem State.modifyReceiver_receiver {f : Receiver → Receiver} (hf : ∀ r, (f r).number = r.number) (n : Nat) :
    (s.modifyReceiver n f).receiver = Function.update s.receiver n ((s.receiver n).map f) := by
  funext m
  rw [Function.update_apply]
  exact find?_modify (key := Receiver.number) hf s.registry.receivers n m

theorem State.setReceivers_setReceivers (k l : List Receiver) : (s.setReceivers k).setReceivers l = s.setReceivers l := by
  unfold State.setReceivers State.rewrite
  simp only [Table.set_set]

theorem State.modifyReceiver_modifyReceiver {f : Receiver → Receiver} (hf : ∀ r, (f r).number = r.number) (n : Nat)
    (g : Receiver → Receiver) : (s.modifyReceiver n f).modifyReceiver n g = s.modifyReceiver n fun r => g (f r) := by
  have receivers : (s.registry.receivers.map fun r => if r.number = n then f r else r).map
      (fun r => if r.number = n then g r else r) = s.registry.receivers.map fun r => if r.number = n then g (f r) else r := by
    rw [List.map_map]
    refine List.map_congr_left fun r _ => ?_
    by_cases same : r.number = n <;> simp [same, hf]
  exact (s.setReceivers_setReceivers _ _).trans (congrArg s.setReceivers receivers)

/-- In ascending order a change of record `n` is decided by what the record holds. -/
theorem State.modifyReceiver_congr {n : Nat} {f g : Receiver → Receiver}
    (sorted : s.registry.receivers.Pairwise fun a b => a.number < b.number)
    (same : ∀ r, s.receiver n = some r → f r = g r) : s.modifyReceiver n f = s.modifyReceiver n g := by
  refine congrArg s.setReceivers (List.map_congr_left fun r mem => ?_)
  split
  · next here =>
    refine same r ?_
    rw [← here]
    exact (mem_iff_find? (key := Receiver.number) sorted r).mp mem
  · rfl

/-- The receiver numbers that have a record, in the order of the records. -/
def State.numbers (s : State) : List Nat := s.registry.receivers.map (·.number)

theorem State.numbers_pairwise : s.numbers.Pairwise (· < ·) ↔ s.registry.receivers.Pairwise fun a b => a.number < b.number :=
  List.pairwise_map

theorem State.modifyReceiver_numbers {f : Receiver → Receiver} (hf : ∀ r, (f r).number = r.number) (n : Nat) :
    (s.modifyReceiver n f).numbers = s.numbers := by
  show List.map _ (List.map _ s.registry.receivers) = _
  rw [List.map_map]
  refine List.map_congr_left fun r _ => ?_
  by_cases here : r.number = n <;> simp [here, hf]

/-- The other records stand when record `n` changes. -/
theorem State.filter_modifyReceiver {f : Receiver → Receiver} (hf : ∀ r, (f r).number = r.number) (n : Nat) :
    (s.modifyReceiver n f).registry.receivers.filter (fun r => r.number ≠ n) =
      s.registry.receivers.filter fun r => r.number ≠ n := by
  show (s.registry.receivers.map _).filter _ = _
  induction s.registry.receivers with
  | nil => rfl
  | cons r rest ih =>
    rw [List.map_cons, List.filter_cons, List.filter_cons, ih]
    by_cases here : r.number = n <;> simp [here, hf]

end receivers

/-! ### Slots (R94) -/

/-- A record that has left its slot. -/
def Receiver.unslotted (r : Receiver) : Receiver := { r with slot := none }

section slots
variable {s : State} {n : Nat} {r : Receiver} {k : Fin 512}

theorem State.freeSlot_of_none (h : s.receiver n = some r) (free : r.slot = none) : s.freeSlot n = s := by
  simp [State.freeSlot, h, free]

theorem State.freeSlot_of_some (h : s.receiver n = some r) (held : r.slot = some k) :
    s.freeSlot n = (s.setSlot k none).modifyReceiver n Receiver.unslotted := by
  simp only [State.freeSlot, h, Option.bind_some, held]
  rfl

theorem State.setSlot_receiver (s : State) (k : Fin 512) (v : Option Nat) : (s.setSlot k v).receiver = s.receiver := rfl

theorem State.freeSlot_receiver (s : State) (n : Nat) :
    (s.freeSlot n).receiver = Function.update s.receiver n ((s.receiver n).map Receiver.unslotted) := by
  cases h : s.receiver n with
  | none =>
    have same : s.freeSlot n = s := by simp [State.freeSlot, h]
    rw [same, Option.map_none, ← h, Function.update_eq_self]
  | some r =>
    cases held : r.slot with
    | none =>
      have unslotted : r.unslotted = r := by unfold Receiver.unslotted; rw [← held]
      rw [State.freeSlot_of_none h held, Option.map_some, unslotted, ← h, Function.update_eq_self]
    | some k =>
      rw [State.freeSlot_of_some h held, State.modifyReceiver_receiver _ (f := Receiver.unslotted) fun _ => rfl,
        State.setSlot_receiver, h]

/-- The slot that receiver `n` holds, if it has a record that holds one (R92). -/
def State.slotOf (s : State) (n : Nat) : Option (Fin 512) := (s.receiver n).bind (·.slot)

theorem State.freeSlot_slots (s : State) (n : Nat) (i : Fin 512) :
    (s.freeSlot n).registry.slots.get i = if s.slotOf n = some i then none else s.registry.slots.get i := by
  unfold State.freeSlot State.slotOf
  cases (s.receiver n).bind (·.slot) with
  | none => rfl
  | some k =>
    show (s.registry.slots.set k none).get i = _
    rw [Table.get_set]
    by_cases same : i = k
    · simp [same]
    · simp [same, Ne.symm same]

theorem State.freeSlot_numbers (s : State) (n : Nat) : (s.freeSlot n).numbers = s.numbers := by
  unfold State.freeSlot
  split
  · exact State.modifyReceiver_numbers (s.setSlot _ none) (f := Receiver.unslotted) (fun _ => rfl) n
  · rfl

/-- A change of record `n` after its slot is freed, the record in no slot. -/
theorem State.freeSlot_modifyReceiver_of_none (h : s.receiver n = some r) (free : r.slot = none)
    (f : Receiver → Receiver) : (s.freeSlot n).modifyReceiver n f = s.modifyReceiver n f := by
  rw [State.freeSlot_of_none h free]

/-- A change of record `n` after its slot is freed: the map entry is emptied, and the record changed as a whole. -/
theorem State.freeSlot_modifyReceiver_of_some (h : s.receiver n = some r) (held : r.slot = some k)
    (f : Receiver → Receiver) :
    (s.freeSlot n).modifyReceiver n f = (s.setSlot k none).modifyReceiver n fun x => f x.unslotted := by
  rw [State.freeSlot_of_some h held, State.modifyReceiver_modifyReceiver _ (f := Receiver.unslotted) fun _ => rfl]

end slots

end Sys2Proof.Machine

namespace Sys2Proof.Proofs
open Sys2Proof Sys2Proof.Machine

/-- Settles O52: a return, a recovery and a write-off by what the freed slot leaves of the record
(`State.freeSlot_modifyReceiver_of_some`); the other effects are their definitions. -/
theorem issueReturnAndWriteOffChangeWhatTheirRulesSay : Obligations.IssueReturnAndWriteOffChangeWhatTheirRulesSay := by
  refine ⟨fun s n k => rfl, fun s n r found => ⟨fun free => ?_, fun k held => ?_, fun h => ⟨fun free => ?_, fun k held => ?_⟩⟩,
    fun s h i n => rfl, fun s h i n => rfl⟩
  · exact State.freeSlot_modifyReceiver_of_none found free _
  · exact State.freeSlot_modifyReceiver_of_some found held _
  · exact State.freeSlot_modifyReceiver_of_none found free _
  · exact State.freeSlot_modifyReceiver_of_some found held _

end Sys2Proof.Proofs
end

section
/-! SUPPORT. Scope, the operator's commands on receivers (R96 to R100, R108) and RACK BATTERY (R103): each by the record that its
number finds, as its effect under its answer. -/

namespace Sys2Proof.Machine

/-! ### Stocktake marks (R108) -/

/-- A record with its stocktake mark clear. -/
def Receiver.unmarked (r : Receiver) : Receiver := { r with mark := false }

section marks
variable {s : State} {n : Nat}

theorem State.clearMark_of_marked {r : Receiver} (h : s.receiver n = some r) (marked : r.mark = true) :
    s.clearMark n = (s.modifyReceiver n Receiver.unmarked).setStocktake
      { s.registry.stocktake with marksLeft := s.registry.stocktake.marksLeft - 1 } := by
  simp only [State.clearMark, h, marked, if_true]
  rfl

theorem State.clearMark_of_unmarked (h : ∀ r, s.receiver n = some r → r.mark = false) : s.clearMark n = s := by
  unfold State.clearMark
  cases found : s.receiver n with
  | none => rfl
  | some r => simp [h r found]

theorem State.clearMark_receiver (s : State) (n : Nat) :
    (s.clearMark n).receiver = Function.update s.receiver n ((s.receiver n).map Receiver.unmarked) := by
  by_cases h : ∀ r, s.receiver n = some r → r.mark = false
  · have same : (s.receiver n).map Receiver.unmarked = s.receiver n := by
      cases found : s.receiver n with
      | none => rfl
      | some r => rw [Option.map_some, Receiver.unmarked, ← h r found]
    rw [State.clearMark_of_unmarked h, same, Function.update_eq_self]
  · push Not at h
    obtain ⟨r, found, marked⟩ := h
    rw [State.clearMark_of_marked found (by simpa using marked)]
    exact s.modifyReceiver_receiver (f := Receiver.unmarked) (fun _ => rfl) n

theorem State.clearMark_slots (s : State) (n : Nat) : (s.clearMark n).registry.slots = s.registry.slots := by
  unfold State.clearMark
  split
  · split <;> rfl
  · rfl

theorem State.clearMark_numbers (s : State) (n : Nat) : (s.clearMark n).numbers = s.numbers := by
  unfold State.clearMark
  split
  · split
    · exact s.modifyReceiver_numbers (f := Receiver.unmarked) (fun _ => rfl) n
    · rfl
  · rfl

end marks

/-! ### The registry's operations leave the request and answer slots apart -/

@[simp] theorem State.placeAnswer_receiver (s : State) (p : Port) (c : Byte) (r : Result) (l : List Byte) (n : Nat) :
    (s.placeAnswer p c r l).receiver n = s.receiver n := by cases p <;> rfl

@[simp] theorem State.placeAnswer_registry (s : State) (p : Port) (c : Byte) (r : Result) (l : List Byte) :
    (s.placeAnswer p c r l).registry = s.registry := by cases p <;> rfl

theorem State.freeSlot_apart (n : Nat) : State.Apart fun s => s.freeSlot n := by
  intro s p c r l
  dsimp only
  unfold State.freeSlot
  rw [State.placeAnswer_receiver]
  split
  · next k _ =>
    exact ((State.modifyReceiver_apart n Receiver.unslotted).comp (State.setSlot_apart k none)) s p c r l
  · rfl

theorem State.clearMark_apart (n : Nat) : State.Apart fun s => s.clearMark n := by
  intro s p c r l
  dsimp only
  unfold State.clearMark
  rw [State.placeAnswer_receiver, State.placeAnswer_registry]
  split
  · split
    · exact ((State.setStocktake_apart _).comp (State.modifyReceiver_apart n Receiver.unmarked)) s p c r l
    · rfl
  · rfl

theorem State.writeThreshold_apart (v : Nat) : State.Apart fun s => s.writeThreshold v := by
  intro s p c r l; cases p <;> rfl

section writes
variable {f : State → State} (h : State.Apart f)
include h

theorem State.Apart.modifyReceiver {n g} : State.Apart fun s => (f s).modifyReceiver n g :=
  (State.modifyReceiver_apart n g).comp h
theorem State.Apart.setReceivers {l} : State.Apart fun s => (f s).setReceivers l := (State.setReceivers_apart l).comp h
theorem State.Apart.setSlot {k v} : State.Apart fun s => (f s).setSlot k v := (State.setSlot_apart k v).comp h
theorem State.Apart.freeSlot {n} : State.Apart fun s => (f s).freeSlot n := (State.freeSlot_apart n).comp h
theorem State.Apart.clearMark {n} : State.Apart fun s => (f s).clearMark n := (State.clearMark_apart n).comp h

end writes

/-! ### Parameters (R169, R170) -/

theorem receiverParam?_bytes {n : Nat} (lo : 1 ≤ n) (hi : n ≤ 65535) : receiverParam? (be 2 n) = some n := by
  rw [be_two]
  show positive? (num [_, _]) = _
  rw [num_two (by omega), positive?_pos lo]

theorem receiverParam?_zero : receiverParam? [0x00#8, 0x00#8] = none := by
  simp [receiverParam?, num, positive?]

theorem thresholdParam?_bytes {v : Nat} (h : v < 256) : oneByte? (fun b => some b.toNat) (be 1 v) = some v :=
  congrArg some (byte_ofNat h)

theorem batteryParams?_bytes {n b : Nat} (lo : 1 ≤ n) (hi : n ≤ 65535) (hb : b < 256) :
    batteryParams? (be 2 n ++ be 1 b) = some (n, b) := by
  rw [be_two, be_one]
  show (positive? (num [_, _])).map (fun n => (n, (BitVec.ofNat 8 b).toNat)) = _
  rw [num_two (by omega), positive?_pos lo, byte_ofNat hb]
  rfl

/-! ### ENROL RECEIVER (R96) -/

section bodies
variable {s : State} {n : Nat} {r : Receiver}

theorem State.receiver_isSome (s : State) (n : Nat) :
    (s.receiver n).isSome = true ↔ ∃ r ∈ s.registry.receivers, r.number = n := by
  simp [State.receiver, List.find?_isSome]

theorem enrolReceiver_duplicate (h : ∃ r ∈ s.registry.receivers, r.number = n) :
    enrolReceiver n s = ⟨s, .duplicate, []⟩ := if_pos ((s.receiver_isSome n).mpr h)

theorem enrolReceiver_tableFull (fresh : ∀ r ∈ s.registry.receivers, r.number ≠ n)
    (full : 2048 ≤ s.registry.receivers.length) : enrolReceiver n s = ⟨s, .tableFull, []⟩ := by
  have unknown : ¬ (s.receiver n).isSome = true := fun k => by
    obtain ⟨r, mem, same⟩ := (s.receiver_isSome n).mp k
    exact fresh r mem same
  exact (if_neg unknown).trans (if_pos full)

/-- ENROL RECEIVER of a number that stands in no record puts its record between those below and those above it. -/
theorem enrolReceiver_between {l1 l2 : List Receiver} (split : s.registry.receivers = l1 ++ l2)
    (below : ∀ r ∈ l1, r.number < n) (above : ∀ r ∈ l2, n < r.number) (room : l1.length + l2.length < 2048) :
    enrolReceiver n s = ⟨s.setReceivers (l1 ++ .enrolled n :: l2), .ok,
      be 2 (l1.length + 1) ++ be 2 (l1.length + l2.length + 1)⟩ := by
  have unknown : ¬ (s.receiver n).isSome = true := fun k => by
    obtain ⟨r, mem, same⟩ := (s.receiver_isSome n).mp k
    rw [split] at mem
    rcases List.mem_append.mp mem with low | high
    · have := below r low; omega
    · have := above r high; omega
  have place : insertAsc (·.number) (Receiver.enrolled n) (l1 ++ l2) = l1 ++ .enrolled n :: l2 :=
    insertAsc_between (key := Receiver.number) below above
  have before : (l1 ++ l2).filter (fun r => decide (r.number < n)) = l1 := by
    rw [List.filter_append, List.filter_eq_self.mpr (by simpa using below),
      List.filter_eq_nil_iff.mpr (by simpa using fun r hr => (above r hr).le), List.append_nil]
  unfold enrolReceiver
  dsimp only
  rw [if_neg unknown, split, if_neg (by simp; omega), place, before, List.length_append]

/-! ### WITHDRAW, REINSTATE and DELETE RECEIVER (R97 to R99) -/

theorem State.withdrawAnswer_of_some (h : s.receiver n = some r) :
    s.withdrawAnswer n = ⟨s, .ok, be 1 r.state.code ++ optBytes 2 (r.slot.map slotNo)⟩ := by
  simp only [State.withdrawAnswer, h]

theorem withdrawReceiver_of_withdrawn (h : s.receiver n = some r) (withdrawn : r.state = .withdrawn) :
    withdrawReceiver n s = ⟨s, .ok, be 1 6 ++ optBytes 2 (r.slot.map slotNo)⟩ := by
  simp only [withdrawReceiver, h, withdrawn]
  rw [State.withdrawAnswer_of_some h, withdrawn]
  rfl

/-- WITHDRAW RECEIVER of a receiver at hand: its mark cleared, it is WITHDRAWN and keeps its slot (R97, R108). -/
theorem withdrawReceiver_of_atHand (h : s.receiver n = some r)
    (atHand : r.state = .ready ∨ r.state = .charging ∨ r.state = .unracked) :
    withdrawReceiver n s = ⟨(s.clearMark n).modifyReceiver n fun x => { x with state := .withdrawn }, .ok,
      be 1 6 ++ optBytes 2 (r.slot.map slotNo)⟩ := by
  have body : withdrawReceiver n s = ((s.clearMark n).setReceiverState n .withdrawn).withdrawAnswer n := by
    rcases atHand with e | e | e <;> simp only [withdrawReceiver, h, e]
  have found : ((s.clearMark n).setReceiverState n .withdrawn).receiver n =
      some { r.unmarked with state := .withdrawn } := by
    rw [State.setReceiverState,
      State.modifyReceiver_receiver _ (f := fun x => { x with state := .withdrawn }) fun _ => rfl, Function.update_self,
      State.clearMark_receiver, Function.update_self, h]
    rfl
  rw [body, State.withdrawAnswer_of_some found]
  rfl

/-- WITHDRAW RECEIVER of a LOST receiver: WITHDRAWN, its hire number cleared (R97). -/
theorem withdrawReceiver_of_lost (h : s.receiver n = some r) (lost : r.state = .lost) :
    withdrawReceiver n s = ⟨s.modifyReceiver n fun x => { x with state := .withdrawn, hire := none }, .ok,
      be 1 6 ++ optBytes 2 (r.slot.map slotNo)⟩ := by
  have found : (s.modifyReceiver n fun x => { x with state := .withdrawn, hire := none }).receiver n =
      some { r with state := .withdrawn, hire := none } := by
    rw [State.modifyReceiver_receiver _ (f := fun x => { x with state := .withdrawn, hire := none }) fun _ => rfl,
      Function.update_self, h]
    rfl
  simp only [withdrawReceiver, h, lost]
  rw [State.withdrawAnswer_of_some found]
  rfl

theorem reinstateReceiver_of_withdrawn (h : s.receiver n = some r) (withdrawn : r.state = .withdrawn) :
    reinstateReceiver n s = ⟨s.modifyReceiver n fun x => { x with state := r.reinstated s.registry.threshold }, .ok,
      be 1 (r.reinstated s.registry.threshold).code⟩ := by
  simp only [reinstateReceiver, h, withdrawn, if_true]
  rfl

theorem reinstateReceiver_notActive (h : s.receiver n = some r) (other : r.state ≠ .withdrawn) :
    reinstateReceiver n s = ⟨s, .notActive, []⟩ := by
  simp only [reinstateReceiver, h, other, if_false]
  rfl

theorem deleteReceiver_notReady (h : s.receiver n = some r) (used : r.state ≠ .withdrawn) (kept : r.state ≠ .lost) :
    deleteReceiver n s = ⟨s, .notReady, []⟩ := by
  simp only [deleteReceiver, h, used, kept, or_self, if_false]
  rfl

theorem deleteReceiver_of_out (h : s.receiver n = some r) (out : r.state = .withdrawn ∨ r.state = .lost) :
    deleteReceiver n s = ⟨s.removeReceiver n, .ok, be 2 (s.removeReceiver n).registry.receivers.length⟩ := by
  simp only [deleteReceiver, h]
  rw [if_pos out]

theorem State.removeReceiver_of_none (h : s.receiver n = some r) (free : r.slot = none) :
    s.removeReceiver n = s.setReceivers (s.registry.receivers.filter fun x => x.number ≠ n) := by
  rw [State.removeReceiver, State.freeSlot_of_none h free]

theorem State.removeReceiver_of_some {k : Fin 512} (h : s.receiver n = some r) (held : r.slot = some k) :
    s.removeReceiver n = (s.setSlot k none).setReceivers (s.registry.receivers.filter fun x => x.number ≠ n) := by
  rw [State.removeReceiver, State.freeSlot_of_some h held]
  rw [State.filter_modifyReceiver _ (f := Receiver.unslotted) fun _ => rfl]
  exact State.setReceivers_setReceivers ..

/-! ### Racked receivers placed by their battery (R93, R100, R103) -/

theorem rackedState_eq (threshold : Nat) (battery : Option Nat) :
    rackedState threshold battery = if ∃ b ∈ battery, threshold ≤ b then .ready else .charging := by
  cases battery <;> simp [rackedState]

theorem Receiver.replace_eq (threshold : Nat) (r : Receiver) : r.replace threshold =
    if r.state = .ready ∨ r.state = .charging
    then { r with state := if ∃ b ∈ r.battery, threshold ≤ b then .ready else .charging } else r := by
  rw [Receiver.replace, ReceiverState.racked_eq, Receiver.place, rackedState_eq]
  simp only [decide_eq_true_eq]

theorem Receiver.report_eq (threshold b : Nat) (r : Receiver) : r.report threshold b = { r with
    battery := some b
    state := if r.state = .ready ∨ r.state = .charging then (if threshold ≤ b then .ready else .charging)
      else r.state } := by
  rw [Receiver.report, Receiver.replace_eq]
  split
  · simp
  · rfl

theorem rackBattery_of_some {b : Nat} (h : s.receiver n = some r) : rackBattery n b s =
    ⟨s.modifyReceiver n (Receiver.report s.registry.threshold (min 100 b)), if 100 < b then .okClamped else .ok,
      be 1 (r.report s.registry.threshold (min 100 b)).state.code ++ be 1 (min 100 b)⟩ := by
  simp only [rackBattery, h]

theorem setThreshold_eq (v : Nat) (s : State) : setThreshold v s =
    ⟨(s.writeThreshold (clamp 20 100 v)).setReceivers (s.registry.receivers.map (Receiver.replace (clamp 20 100 v))),
      if clamp 20 100 v = v then .ok else .okClamped, be 1 (clamp 20 100 v)
        ++ be 2 (s.registry.receivers.countP fun r => (r.replace (clamp 20 100 v)).state ≠ r.state)⟩ := by
  rw [List.countP_eq_length_filter]
  unfold setThreshold
  dsimp only
  congr 5
  funext r
  simp only [bne, decide_not]
  rfl

end bodies

/-! ### The commands on a port that can take them -/

section commands
variable {s : State} {n : Nat} (h : s.canTake .operator) (lo : 1 ≤ n) (hi : n ≤ 65535)
include h lo hi

/-- A command of the operator on receiver `n` that changes nothing. -/
theorem exec_receiver_plain {code : Byte} {body : Nat → State → Reply} {r : Result} {fields : List Byte}
    (accepted : acceptedOn code .operator = true) (fits : paramsFit code (be 2 n) = true)
    (hb : body n (s.taken .operator code (be 2 n)) = ⟨s.taken .operator code (be 2 n), r, fields⟩) :
    (.next (s.serve .operator code (be 2 n) (withParams (receiverParam? (be 2 n)) body)) : Host.Outcome State Fault Refusal) =
      .next (s.answered .operator code r fields) :=
  exec_of_plain h (by simp [be]) accepted fits (receiverParam?_bytes lo hi) hb

/-- A command of the operator on receiver `n` that does `f`. -/
theorem exec_receiver_apart {code : Byte} {body : Nat → State → Reply} {f : State → State} {r : Result} {fields : List Byte}
    (accepted : acceptedOn code .operator = true) (fits : paramsFit code (be 2 n) = true) (apart : State.Apart f)
    (hb : body n (s.taken .operator code (be 2 n)) = ⟨f (s.taken .operator code (be 2 n)), r, fields⟩) :
    (.next (s.serve .operator code (be 2 n) (withParams (receiverParam? (be 2 n)) body)) : Host.Outcome State Fault Refusal) =
      .next (f (s.answered .operator code r fields)) :=
  exec_of_apart h (by simp [be]) accepted fits (receiverParam?_bytes lo hi) apart hb

end commands

end Sys2Proof.Machine

namespace Sys2Proof.Proofs
open Sys2Proof Sys2Proof.Machine

/-- Settles O45: each command by the record that its number finds, and a mark's clearing by whether it is set. -/
theorem receiversAreEnrolledWithdrawnAndDeleted : Obligations.ReceiversAreEnrolledWithdrawnAndDeleted := by
  refine ⟨fun s n h lo hi => ⟨fun known => ?_, fun fresh full => ?_, fun l1 l2 split below above room => ?_⟩,
    fun s n h lo hi => ⟨fun unknown => ⟨?_, ?_⟩, fun r found => ?_⟩, fun s n => ⟨fun r found marked => ?_, fun unmarked => ?_⟩⟩
  · exact exec_receiver_plain h lo hi rfl rfl (enrolReceiver_duplicate (by simpa using known))
  · exact exec_receiver_plain h lo hi rfl rfl (enrolReceiver_tableFull (by simpa using fresh) (by simpa using full))
  · exact exec_receiver_apart h lo hi rfl rfl (State.setReceivers_apart _)
      (enrolReceiver_between ((congrArg Registry.receivers (State.taken_registry ..)).trans split) below above room)
  · exact exec_receiver_plain h lo hi rfl rfl (by simp [withdrawReceiver, unknown, State.refuse])
  · exact exec_receiver_plain h lo hi rfl rfl (by simp [deleteReceiver, unknown, State.refuse])
  · have known (c : Byte) : (s.taken .operator c (be 2 n)).receiver n = some r := (State.taken_receiver ..).trans found
    refine ⟨fun onHire => ?_, fun withdrawn => ?_, fun atHand => ?_, fun lost => ?_, fun used kept => ?_, fun out l hl =>
      ⟨fun free => ?_, fun k held => ?_⟩⟩
    · exact exec_receiver_plain h lo hi rfl rfl (by simp [withdrawReceiver, found, onHire, State.refuse])
    · exact exec_receiver_plain h lo hi rfl rfl (withdrawReceiver_of_withdrawn (known _) withdrawn)
    · exact exec_receiver_apart h lo hi rfl rfl (State.clearMark_apart n).modifyReceiver
        (withdrawReceiver_of_atHand (known _) atHand)
    · exact exec_receiver_apart h lo hi rfl rfl (State.modifyReceiver_apart n _) (withdrawReceiver_of_lost (known _) lost)
    · exact exec_receiver_plain h lo hi rfl rfl (deleteReceiver_notReady (known _) used kept)
    · refine exec_receiver_apart h lo hi rfl rfl (State.setReceivers_apart l) ?_
      rw [deleteReceiver_of_out (known _) out, State.removeReceiver_of_none (known _) free, State.taken_registry, ← hl]
      rfl
    · refine exec_receiver_apart h lo hi rfl rfl (State.setSlot_apart k none).setReceivers ?_
      rw [deleteReceiver_of_out (known _) out, State.removeReceiver_of_some (known _) held, State.taken_registry, ← hl]
      rfl
  · exact State.clearMark_of_marked found marked
  · exact State.clearMark_of_unmarked unmarked

/-- Settles O46: the state that REINSTATE RECEIVER gives by whether the record has a slot and by its battery. -/
theorem reinstateReceiverPutsItBackIntoUse : Obligations.ReinstateReceiverPutsItBackIntoUse := by
  refine fun s h => ⟨exec_of_malformed h (by simp) rfl receiverParam?_zero, fun n lo hi => ⟨fun unknown => ?_, fun r found =>
    ⟨fun other => ?_, fun withdrawn => ?_⟩⟩⟩
  · exact exec_receiver_plain h lo hi rfl rfl (by simp [reinstateReceiver, unknown, State.refuse])
  · exact exec_receiver_plain h lo hi rfl rfl (reinstateReceiver_notActive ((State.taken_receiver ..).trans found) other)
  · have reinstated (x : ReceiverState) (hx : r.reinstated s.registry.threshold = x) :
        exec (.reinstateReceiver .operator (be 2 n)) s = .next
          ((s.answered .operator 0x60#8 .ok (be 1 x.code)).modifyReceiver n fun y => { y with state := x }) := by
      refine exec_receiver_apart h lo hi rfl rfl (State.modifyReceiver_apart n fun y => { y with state := x }) ?_
      rw [reinstateReceiver_of_withdrawn ((State.taken_receiver ..).trans found) withdrawn, State.taken_registry, hx]
    have racked (slot : r.slot ≠ none) : r.reinstated s.registry.threshold =
        if ∃ b ∈ r.battery, s.registry.threshold ≤ b then .ready else .charging := by
      rw [Receiver.reinstated, if_pos (Option.isSome_iff_ne_none.mpr slot), rackedState_eq]
    refine ⟨fun free => reinstated .unracked (by simp [Receiver.reinstated, free]), fun slot charged =>
      reinstated .ready ?_, fun slot low => reinstated .charging ?_⟩
    · exact (racked slot).trans (if_pos charged)
    · refine (racked slot).trans (if_neg ?_)
      rintro ⟨b, battery, enough⟩
      exact absurd enough (low b battery).not_ge

/-- Settles O47: a racked receiver's state by its battery (`Receiver.replace_eq`, `Receiver.report_eq`). -/
theorem batteriesPlaceRackedReceivers : Obligations.BatteriesPlaceRackedReceivers := by
  refine ⟨fun s v t f h hv ht hf => ?_, fun s n b h lo hi hb => ⟨fun unknown => ?_, fun r x found hx => ?_⟩⟩
  · have stored : clamp 20 100 v = t := ht.symm
    have placed : Receiver.replace t = f := by
      funext r
      rw [hf, Receiver.replace_eq]
    have event : exec (.setThreshold .operator (be 1 v)) s = .next
        (((s.answered .operator 0x5B#8 (if t = v then .ok else .okClamped) (be 1 t
          ++ be 2 (s.registry.receivers.countP fun r => (f r).state ≠ r.state))).writeThreshold t).setReceivers
            (s.registry.receivers.map f)) := by
      refine exec_of_apart (f := fun u => (u.writeThreshold t).setReceivers (s.registry.receivers.map f)) h (by simp [be])
        rfl rfl (parsed := oneByte? _ (be 1 v)) (thresholdParam?_bytes hv) (State.writeThreshold_apart t).setReceivers ?_
      rw [setThreshold_eq, stored, placed, State.taken_registry]
    rw [event]
    rfl
  · refine exec_of_plain h (by simp [be]) rfl rfl (parsed := batteryParams? (be 2 n ++ be 1 b))
      (batteryParams?_bytes lo hi hb) ?_
    simp [rackBattery, unknown, State.refuse]
  · have reported : (r.report s.registry.threshold (min 100 b)).state = x := by rw [Receiver.report_eq, hx]
    have result : (if 100 < b then Result.okClamped else .ok) = if b ≤ 100 then .ok else .okClamped := by
      simp only [← Nat.not_le, ite_not]
    refine exec_of_apart (f := fun u => u.modifyReceiver n fun y => { y with
        battery := some (min 100 b)
        state := if y.state = .ready ∨ y.state = .charging
          then (if s.registry.threshold ≤ min 100 b then .ready else .charging) else y.state }) h (by simp [be]) rfl rfl
      (parsed := batteryParams? (be 2 n ++ be 1 b)) (batteryParams?_bytes lo hi hb) (State.modifyReceiver_apart n _) ?_
    have report : Receiver.report s.registry.threshold (min 100 b) = _ := funext (Receiver.report_eq _ _)
    show rackBattery n b _ = _
    rw [rackBattery_of_some ((State.taken_receiver ..).trans found), State.taken_registry, reported, result, report]

end Sys2Proof.Proofs
end

section
/-! SUPPORT. Scope, the rack events (R94, R101, R102, R104): the slot map and the records by receiver and by slot, the implicit
return as what it leaves of the registry and of its answer, and RACK SEATED and RACK REMOVED as their effects under their
answers. -/

namespace Sys2Proof.Machine

/-! ### Records and slots together (R94) -/

/-- An update of the records and the slot map alone, with their check word in step (R94, R185). -/
def State.Racks (s t : State) : Prop := t = { s with
  registry := { s.registry with slots := t.registry.slots, receivers := t.registry.receivers }
  retention := (s.rewrite 0).retention }

section racks
variable {s t u : State}

theorem State.Racks.trans (h : s.Racks t) (k : t.Racks u) : s.Racks u := by
  unfold State.Racks at *
  rw [k, h]
  simp only [State.rewrite_retention, Table.set_set]

theorem State.setSlot_racks (s : State) (k : Fin 512) (v : Option Nat) : s.Racks (s.setSlot k v) := rfl

theorem State.modifyReceiver_racks (s : State) (n : Nat) (f : Receiver → Receiver) : s.Racks (s.modifyReceiver n f) := rfl

theorem State.freeSlot_racks {n : Nat} {r : Receiver} {k : Fin 512} (h : s.receiver n = some r) (held : r.slot = some k) :
    s.Racks (s.freeSlot n) := by
  rw [State.freeSlot_of_some h held]
  exact (s.setSlot_racks k none).trans (State.modifyReceiver_racks ..)

/-- A record seated in slot `k`. -/
def Receiver.seatedIn (k : Fin 512) (r : Receiver) : Receiver := { r with slot := some k }

theorem State.seat_eq (s : State) (n : Nat) (k : Fin 512) :
    s.seat n k = ((s.freeSlot n).setSlot k (some n)).modifyReceiver n (Receiver.seatedIn k) := rfl

theorem State.seat_racks {n : Nat} {r : Receiver} (h : s.receiver n = some r) (k : Fin 512) : s.Racks (s.seat n k) := by
  have seated (u : State) : u.Racks ((u.setSlot k (some n)).modifyReceiver n (Receiver.seatedIn k)) :=
    (u.setSlot_racks k (some n)).trans (State.modifyReceiver_racks ..)
  rw [State.seat_eq]
  cases held : r.slot with
  | none =>
    rw [State.freeSlot_of_none h held]
    exact seated s
  | some j => exact (State.freeSlot_racks h held).trans (seated _)

theorem State.seat_receivers {n : Nat} {r : Receiver} (h : s.receiver n = some r) (k : Fin 512) :
    (s.seat n k).registry.receivers =
      s.registry.receivers.map fun x => if x.number = n then { x with slot := some k } else x := by
  rw [State.seat_eq]
  cases held : r.slot with
  | none =>
    rw [State.freeSlot_of_none h held]
    rfl
  | some j =>
    rw [State.freeSlot_of_some h held]
    show (s.registry.receivers.map _).map _ = _
    rw [List.map_map]
    refine List.map_congr_left fun x _ => ?_
    by_cases here : x.number = n <;> simp [here, Receiver.unslotted, Receiver.seatedIn]

theorem State.seat_receiver (s : State) (n : Nat) (k : Fin 512) :
    (s.seat n k).receiver = Function.update s.receiver n ((s.receiver n).map (Receiver.seatedIn k)) := by
  rw [State.seat_eq, State.modifyReceiver_receiver _ (f := Receiver.seatedIn k) fun _ => rfl, State.setSlot_receiver,
    State.freeSlot_receiver, Function.update_self, Function.update_idem, Option.map_map]
  rfl

theorem State.seat_slots (s : State) (n : Nat) (k i : Fin 512) : (s.seat n k).registry.slots.get i =
    if i = k then some n else if s.slotOf n = some i then none else s.registry.slots.get i := by
  show ((s.freeSlot n).registry.slots.set k (some n)).get i = _
  rw [Table.get_set, State.freeSlot_slots]

theorem State.seat_numbers (s : State) (n : Nat) (k : Fin 512) : (s.seat n k).numbers = s.numbers := by
  rw [State.seat_eq, State.modifyReceiver_numbers _ (f := Receiver.seatedIn k) fun _ => rfl]
  exact s.freeSlot_numbers n

/-- The law of the rack map, read by receiver and by slot. -/
theorem State.rackMapAgrees_iff (s : State) : s.rackMapAgrees ↔
    s.numbers.Pairwise (· < ·) ∧ ∀ k n, s.registry.slots.get k = some n ↔ s.slotOf n = some k := by
  rw [State.rackMapAgrees, State.numbers_pairwise]
  refine and_congr_right fun sorted => forall₂_congr fun k n => iff_congr Iff.rfl ?_
  rw [State.slotOf, Option.bind_eq_some_iff]
  refine exists_congr fun r => ⟨fun ⟨mem, same, held⟩ => ⟨?_, held⟩, fun ⟨found, held⟩ =>
    ⟨List.mem_of_find?_eq_some found, s.receiver_number found, held⟩⟩
  rw [← same]
  exact (mem_iff_find? (key := Receiver.number) sorted r).mp mem

end racks

/-! ### What reads and writes the registry alone -/

section registry
variable {s t : State}

theorem State.Reports.registry (h : s.Reports t) : t.registry = s.registry := by
  rw [show t = _ from h]

variable (h : t.registry = s.registry)
include h

theorem State.receiver_congr : t.receiver = s.receiver := by
  funext n
  unfold State.receiver
  rw [h]

theorem State.numbers_congr : t.numbers = s.numbers := by
  unfold State.numbers
  rw [h]

theorem State.unrackReceiver_registry_congr (n : Nat) : (t.unrackReceiver n).registry = (s.unrackReceiver n).registry := by
  unfold State.unrackReceiver State.freeSlot
  rw [State.receiver_congr h]
  cases (s.receiver n).bind (·.slot) <;>
    simp only [State.modifyReceiver, State.setReceivers_registry, State.setSlot_registry, h]

end registry

/-- A record that a return leaves (R105). -/
def Receiver.unracked (r : Receiver) : Receiver := { r with state := .unracked, hire := none, slot := none }

theorem State.unrackReceiver_receiver (s : State) (n : Nat) :
    (s.unrackReceiver n).receiver = Function.update s.receiver n ((s.receiver n).map Receiver.unracked) := by
  rw [State.unrackReceiver, State.modifyReceiver_receiver _ (f := fun r => { r with state := .unracked, hire := none })
    fun _ => rfl, State.freeSlot_receiver, Function.update_self, Function.update_idem, Option.map_map]
  rfl

theorem State.unrackReceiver_slots (s : State) (n : Nat) (i : Fin 512) : (s.unrackReceiver n).registry.slots.get i =
    if s.slotOf n = some i then none else s.registry.slots.get i := s.freeSlot_slots n i

theorem State.unrackReceiver_numbers (s : State) (n : Nat) : (s.unrackReceiver n).numbers = s.numbers := by
  rw [State.unrackReceiver, State.modifyReceiver_numbers _ (f := fun r => { r with state := .unracked, hire := none })
    fun _ => rfl, State.freeSlot_numbers]

/-! ### The threshold stands (R100) -/

section threshold
variable (s : State)

theorem State.freeSlot_threshold (n : Nat) : (s.freeSlot n).registry.threshold = s.registry.threshold := by
  unfold State.freeSlot
  split <;> rfl

theorem State.clearMark_threshold (n : Nat) : (s.clearMark n).registry.threshold = s.registry.threshold := by
  unfold State.clearMark
  split
  · split <;> rfl
  · rfl

theorem State.pullFromRack_threshold (m : Nat) (k : Fin 512) (c : Nat) :
    (s.pullFromRack m k c).registry.threshold = s.registry.threshold := by
  rw [State.pullFromRack, (State.notify_reports ..).registry]
  exact (State.freeSlot_threshold _ m).trans (s.clearMark_threshold m)

end threshold

/-! ### A receiver that leaves the rack (R101, R104) -/

/-- A racked record that has left its slot: its mark cleared and UNRACKED. -/
def Receiver.pulled (r : Receiver) : Receiver := { r with state := .unracked, slot := none, mark := false }

section pull
variable (s : State) (m : Nat) (k : Fin 512) (c : Nat)

theorem State.pullFromRack_registry : (s.pullFromRack m k c).registry =
    (((s.clearMark m).freeSlot m).setReceiverState m .unracked).registry := (State.notify_reports ..).registry

theorem State.pullFromRack_receiver :
    (s.pullFromRack m k c).receiver = Function.update s.receiver m ((s.receiver m).map Receiver.pulled) := by
  rw [State.receiver_congr (s.pullFromRack_registry m k c), State.setReceiverState,
    State.modifyReceiver_receiver _ (f := fun r => { r with state := .unracked }) fun _ => rfl, State.freeSlot_receiver,
    State.clearMark_receiver]
  simp only [Function.update_self, Function.update_idem, Option.map_map]
  rfl

theorem State.pullFromRack_numbers : (s.pullFromRack m k c).numbers = s.numbers := by
  rw [State.numbers_congr (s.pullFromRack_registry m k c), State.setReceiverState,
    State.modifyReceiver_numbers _ (f := fun r => { r with state := .unracked }) fun _ => rfl, State.freeSlot_numbers,
    State.clearMark_numbers]

theorem State.clearMark_slotOf : (s.clearMark m).slotOf = s.slotOf := by
  funext n
  unfold State.slotOf
  rw [State.clearMark_receiver]
  by_cases same : n = m
  · rw [same, Function.update_self, Option.bind_map]
    rfl
  · rw [Function.update_of_ne same]

theorem State.pullFromRack_slots (i : Fin 512) : (s.pullFromRack m k c).registry.slots.get i =
    if s.slotOf m = some i then none else s.registry.slots.get i := by
  rw [State.pullFromRack_registry]
  show ((s.clearMark m).freeSlot m).registry.slots.get i = _
  rw [State.freeSlot_slots, State.clearMark_slotOf, State.clearMark_slots]

end pull

end Sys2Proof.Machine
end

section
/-! SUPPORT. Scope, RACK SEATED and RACK REMOVED (R101, R102, R104): the return of an ON_HIRE receiver (R118) as what it leaves of
the registry, of its answer and of the port's slots, and the two events as their effects under their answers. -/

namespace Sys2Proof.Machine

/-! ### The close of a hire (R126) -/

section close
variable (s : State)

theorem State.appendSettled_registry (r : Settled) : (s.appendSettled r).registry = s.registry := by
  unfold State.appendSettled
  dsimp only
  split
  · exact (State.notify_reports ..).registry
  · rfl

theorem State.closeHire_registry (h : Hire) : (s.closeHire h).1.registry = s.registry := by
  unfold State.closeHire
  dsimp only
  split
  · exact State.appendSettled_registry ..
  · exact (State.raiseFault_reports ..).registry

theorem State.closeIfDone_registry (n : Nat) : (s.closeIfDone n).1.registry = s.registry := by
  unfold State.closeIfDone
  split
  · rfl
  · split
    · rfl
    · exact s.closeHire_registry _

/-- The way that a close takes: into the queue while it has room (R144, R145). -/
theorem State.closeHire_way (h : Hire) : (s.closeHire h).2 = if s.settlement.queue.length < 64 then .queued else .settling := by
  unfold State.closeHire
  dsimp only
  split <;> rfl

/-- Whether hire `n` closes and which way, by its record and the queue's room (R118, R144). -/
theorem State.closeIfDone_way (n : Nat) : (s.closeIfDone n).2 = (s.hire n).bind fun h =>
    if h.anyOut then none else some (if s.settlement.queue.length < 64 then .queued else .settling) := by
  unfold State.closeIfDone
  split
  · next none => rw [none]; rfl
  · next h found =>
    rw [found, Option.bind_some]
    split
    · rfl
    · exact congrArg some (s.closeHire_way h)

theorem State.changeDemand_registry (p : Option Prog) (f : Nat → Nat) : (s.changeDemand p f).registry = s.registry := by
  cases p <;> rfl

end close

/-! ### The return of an ON_HIRE receiver (R118) -/

section returns
variable {s t : State} {r : Receiver}

theorem State.returnReceiver_of_line {h : Hire} {i : Nat} (found : s.lineOf r = some (h, i)) : s.returnReceiver r =
    (((s.returnLine h i r.number).closeIfDone h.number).1,
      ⟨h.number, i + 1, ((s.returnLine h i r.number).closeIfDone h.number).2⟩) := by
  unfold State.returnReceiver
  rw [found]

theorem State.returnReceiver_of_none (absent : s.lineOf r = none) :
    s.returnReceiver r = (s.unrackReceiver r.number, ⟨r.hire.getD 0, 0, none⟩) := by
  unfold State.returnReceiver
  rw [absent]

theorem State.returnLine_registry (s : State) (h : Hire) (i n : Nat) :
    (s.returnLine h i n).registry = (s.unrackReceiver n).registry := by
  refine (State.changeDemand_registry ..).trans (State.unrackReceiver_registry_congr ?_ n)
  rfl

/-- A return leaves the registry as the receiver's part of it does, whatever becomes of the hire (R105, R118). -/
theorem State.returnReceiver_registry (s : State) (r : Receiver) :
    (s.returnReceiver r).1.registry = (s.unrackReceiver r.number).registry := by
  cases found : s.lineOf r with
  | none => rw [State.returnReceiver_of_none found]
  | some x =>
    rw [State.returnReceiver_of_line found]
    exact (State.closeIfDone_registry ..).trans (State.returnLine_registry ..)

theorem State.unrackReceiver_hires (s : State) (n : Nat) : (s.unrackReceiver n).hires = s.hires := by
  unfold State.unrackReceiver State.freeSlot
  split <;> rfl

theorem State.unrackReceiver_settlement (s : State) (n : Nat) : (s.unrackReceiver n).settlement = s.settlement := by
  unfold State.unrackReceiver State.freeSlot
  split <;> rfl

theorem State.changeDemand_hires (s : State) (p : Option Prog) (f : Nat → Nat) : (s.changeDemand p f).hires = s.hires := by
  cases p <;> rfl

theorem State.changeDemand_settlement (s : State) (p : Option Prog) (f : Nat → Nat) :
    (s.changeDemand p f).settlement = s.settlement := by
  cases p <;> rfl

/-- The line that R118 step 1 leaves of a hire. -/
def Hire.giveBack (i : Nat) (time : HallTime) (valid : Bool) (outage : Option (BitVec 32)) (h : Hire) : Hire :=
  { h.modifyLine i fun l => l.giveBack time outage with suspect := h.suspect || !valid }

theorem State.returnLine_hires (s : State) (h : Hire) (i n : Nat) : (s.returnLine h i n).hires =
    (s.modifyHire h.number (Hire.giveBack i s.session.clock s.session.valid (s.presetOutage h.preset))).hires := by
  refine (State.changeDemand_hires ..).trans ((State.unrackReceiver_hires ..).trans ?_)
  rfl

theorem State.returnLine_settlement (s : State) (h : Hire) (i n : Nat) :
    (s.returnLine h i n).settlement = s.settlement :=
  (State.changeDemand_settlement ..).trans (State.unrackReceiver_settlement ..)

theorem State.hire_congr (h : t.hires = s.hires) : t.hire = s.hire := by
  funext n
  unfold State.hire
  rw [h]

/-- What a return tells its answer does not depend on the ports (R120). -/
theorem State.returnReceiver_outcome (p : Port) (c : Byte) (l : List Byte) :
    ((s.taken p c l).returnReceiver r).2 = (s.returnReceiver r).2 := by
  have lines : (s.taken p c l).lineOf r = s.lineOf r := by
    unfold State.lineOf
    rw [State.hire_congr (State.taken_hires s p c l)]
  cases found : s.lineOf r with
  | none => rw [State.returnReceiver_of_none found, State.returnReceiver_of_none (lines.trans found)]
  | some x =>
    rw [State.returnReceiver_of_line found, State.returnReceiver_of_line (lines.trans found), State.closeIfDone_way,
      State.closeIfDone_way]
    have hires : ((s.taken p c l).returnLine x.1 x.2 r.number).hires = (s.returnLine x.1 x.2 r.number).hires := by
      rw [State.returnLine_hires, State.returnLine_hires]
      simp only [State.presetOutage, State.modifyHire, State.setHires_hires, State.taken_hires, State.taken_session,
        State.taken_program]
    rw [State.hire_congr hires, State.returnLine_settlement, State.returnLine_settlement, State.taken_settlement]

/-! ### A return leaves the request and answer slots apart -/

theorem State.hires_placeAnswer (p : Port) (c : Byte) (x : Result) (l : List Byte) :
    (s.placeAnswer p c x l).hires = s.hires := by cases p <;> rfl
theorem State.session_placeAnswer (p : Port) (c : Byte) (x : Result) (l : List Byte) :
    (s.placeAnswer p c x l).session = s.session := by cases p <;> rfl
theorem State.settlement_placeAnswer (p : Port) (c : Byte) (x : Result) (l : List Byte) :
    (s.placeAnswer p c x l).settlement = s.settlement := by cases p <;> rfl
theorem State.presetOutage_placeAnswer (p : Port) (c : Byte) (x : Result) (l : List Byte) :
    (s.placeAnswer p c x l).presetOutage = s.presetOutage := by cases p <;> rfl

theorem State.appendSettled_apart (x : Settled) : State.Apart fun s => s.appendSettled x := by
  intro s p c r l
  have counted : State.Apart fun u => (u.setQueue (s.settlement.queue ++ [x])).modifyCounters fun k => k.addSettled x.account :=
    (State.modifyCounters_apart _).comp (State.setQueue_apart _)
  dsimp only
  unfold State.appendSettled
  dsimp only
  rw [State.settlement_placeAnswer]
  split
  · exact counted.notify s p c r l
  · exact counted s p c r l

theorem State.removeHire_apart (n : Nat) : State.Apart fun s => s.removeHire n := by
  intro s p c r l; cases p <;> rfl

theorem State.closeHire_placeAnswer (s : State) (p : Port) (c : Byte) (r : Result) (l : List Byte) (h : Hire) :
    (s.placeAnswer p c r l).closeHire h = ((s.closeHire h).1.placeAnswer p c r l, (s.closeHire h).2) := by
  have kept : (s.placeAnswer p c r l).settlingCount = s.settlingCount := by cases p <;> rfl
  have plan : (s.placeAnswer p c r l).tariff h.plan = s.tariff h.plan := by cases p <;> rfl
  unfold State.closeHire
  dsimp only
  rw [State.settlement_placeAnswer, State.session_placeAnswer, kept, plan]
  split
  · exact congrArg (·, CloseWay.queued) (((State.appendSettled_apart _).comp (State.removeHire_apart _)) s p c r l)
  · exact congrArg (·, CloseWay.settling)
      (((State.raiseFault_placeAnswer _ _).comp (State.modifyHire_apart _ _)) s p c r l)

theorem State.closeIfDone_placeAnswer (s : State) (p : Port) (c : Byte) (r : Result) (l : List Byte) (n : Nat) :
    (s.placeAnswer p c r l).closeIfDone n = ((s.closeIfDone n).1.placeAnswer p c r l, (s.closeIfDone n).2) := by
  unfold State.closeIfDone
  rw [State.hire_congr (State.hires_placeAnswer p c r l)]
  split
  · rfl
  · next h _ =>
    split
    · rfl
    · rw [State.closeHire_placeAnswer]

theorem State.changeDemand_apart (preset : Option Prog) (f : Nat → Nat) : State.Apart fun s => s.changeDemand preset f := by
  cases preset with
  | none => exact State.Apart.id
  | some p => exact State.modifyProgram_apart p _

theorem State.unrackReceiver_apart (n : Nat) : State.Apart fun s => s.unrackReceiver n :=
  (State.freeSlot_apart n).modifyReceiver

theorem State.returnLine_apart (h : Hire) (i n : Nat) : State.Apart fun s => s.returnLine h i n := by
  intro s p c r l
  dsimp only
  unfold State.returnLine
  rw [State.session_placeAnswer, State.presetOutage_placeAnswer]
  exact (State.modifyCounters_apart _).comp ((State.changeDemand_apart _ _).comp ((State.unrackReceiver_apart n).comp
    (State.modifyHire_apart h.number
      (Hire.giveBack i s.session.clock s.session.valid (s.presetOutage h.preset))))) s p c r l

theorem State.returnReceiver_apart (r : Receiver) : State.Apart fun s => (s.returnReceiver r).1 := by
  intro s p c x l
  have lines : (s.placeAnswer p c x l).lineOf r = s.lineOf r := by
    unfold State.lineOf
    rw [State.hire_congr (State.hires_placeAnswer p c x l)]
  dsimp only
  cases found : s.lineOf r with
  | none =>
    rw [State.returnReceiver_of_none found, State.returnReceiver_of_none (lines.trans found)]
    exact State.unrackReceiver_apart _ s p c x l
  | some y =>
    rw [State.returnReceiver_of_line found, State.returnReceiver_of_line (lines.trans found)]
    dsimp only
    rw [show (s.placeAnswer p c x l).returnLine y.1 y.2 r.number = (s.returnLine y.1 y.2 r.number).placeAnswer p c x l from
      State.returnLine_apart _ _ _ s p c x l, State.closeIfDone_placeAnswer]

end returns

/-! ### RACK SEATED (R101, R102) -/

/-- A record as R101 steps 4 and 5 leave it: the battery as reported, the state of R102's table, and a LOST receiver's hire
number cleared. -/
def Receiver.settled (b : Nat) (x taken : ReceiverState) (r : Receiver) : Receiver :=
  { r with battery := some b, state := x, hire := if taken = .lost then none else r.hire }

/-- The state that R102's table gives. -/
def seatedState (threshold b : Nat) (taken : ReceiverState) : ReceiverState :=
  if taken = .withdrawn then .withdrawn else if threshold ≤ b then .ready else .charging

theorem Receiver.settle_eq {threshold b : Nat} {taken : ReceiverState} {r : Receiver}
    (h : taken = .withdrawn → r.state = .withdrawn) :
    r.settle threshold b taken = r.settled b (seatedState threshold b taken) taken := by
  cases taken with
  | withdrawn =>
    show ({ r with battery := some b } : Receiver) = { r with battery := some b, state := .withdrawn }
    rw [← h rfl]
  | _ => rfl

section seated
variable {s : State} {n : Nat} {k : Fin 512} {b : Nat} {r : Receiver} {taken : ReceiverState}

theorem State.seatAndPlace_eq (sorted : s.numbers.Pairwise (· < ·)) (found : s.receiver n = some r)
    (h : taken = .withdrawn → r.state = .withdrawn) : s.seatAndPlace n k b taken =
      ((s.seat n k).modifyReceiver n (Receiver.settled b (seatedState s.registry.threshold b taken) taken)).clearMark n := by
  refine congrArg (State.clearMark · n) (State.modifyReceiver_congr _ ?_ fun y seated => Receiver.settle_eq fun withdrawn => ?_)
  · rwa [← State.numbers_pairwise, State.seat_numbers]
  · rw [State.seat_receiver, Function.update_self, found] at seated
    cases seated
    exact h withdrawn

theorem State.receiverCode_of_some (found : s.receiver n = some r) : s.receiverCode n = r.state.code := by
  unfold State.receiverCode
  rw [found]

theorem State.seatAndPlace_code (sorted : s.numbers.Pairwise (· < ·)) (found : s.receiver n = some r)
    (h : taken = .withdrawn → r.state = .withdrawn) :
    (s.seatAndPlace n k b taken).receiverCode n = (seatedState s.registry.threshold b taken).code := by
  rw [State.seatAndPlace_eq sorted found h]
  refine State.receiverCode_of_some
    (r := ((r.seatedIn k).settled b (seatedState s.registry.threshold b taken) taken).unmarked) ?_
  rw [State.clearMark_receiver, Function.update_self,
    State.modifyReceiver_receiver _ (f := Receiver.settled b _ taken) fun _ => rfl, Function.update_self,
    State.seat_receiver, Function.update_self, found]
  rfl

theorem State.displace_of_free {s : State} (h : s.registry.slots.get k = none ∨ s.registry.slots.get k = some n) :
    s.displace n k = (s, none) := by
  unfold State.displace
  rcases h with h | h <;> rw [h]
  exact if_pos rfl

theorem State.displace_of_held {s : State} {m : Nat} {q : Receiver} (h : s.registry.slots.get k = some m) (other : m ≠ n)
    (found : s.receiver m = some q) :
    s.displace n k = (if q.state.racked then s.pullFromRack m k 1 else s.freeSlot m, some m) := by
  unfold State.displace
  rw [h]
  dsimp only
  rw [if_neg other, found]

theorem rackSeated_of_some {u v : State} {back : Option LineOutcome} {gone : Option Nat} (found : s.receiver n = some r)
    (returned : s.implicitReturn r = (u, back)) (displaced : u.displace n k = (v, gone)) : rackSeated n k b s =
      ⟨v.seatAndPlace n k (min 100 b) r.state, seatedResult r.state (decide (100 < b)),
        be 1 ((v.seatAndPlace n k (min 100 b) r.state).receiverCode n) ++ be 2 (slotNo k) ++ be 1 (min 100 b)
          ++ optBytes 2 gone ++ seatedBytes back r.state (decide (100 < b))⟩ := by
  simp only [rackSeated, found, returned, displaced]

theorem seatedParams?_bytes (k : Fin 512) (lo : 1 ≤ n) (hi : n ≤ 65535) (hb : b < 256) :
    seatedParams? (be 2 n ++ be 2 (k.val + 1) ++ be 1 b) = some (n, k, b) := by
  have slot : index? 1 512 (k.val + 1) = some k := index?_eq k (by omega)
  rw [be_two, be_two, be_one]
  simp only [List.cons_append, List.nil_append, seatedParams?, num_two (show n < 65536 by omega),
    num_two (show k.val + 1 < 65536 by omega), positive?_pos lo, slot, byte_ofNat hb]

theorem slotParam?_bytes (k : Fin 512) : slotParam? (be 2 (k.val + 1)) = some k := by
  rw [be_two]
  show index? 1 512 (num [_, _]) = _
  rw [num_two (by omega)]
  exact index?_eq k (by omega)

/-- State `t` has what the seating of receiver `n` reads as `s` has it: the order, the threshold, and the record of `n`, still
WITHDRAWN if it was (R101, R102). -/
structure State.SeatsAs (s t : State) (n : Nat) (r : Receiver) : Prop where
  sorted : t.numbers.Pairwise (· < ·)
  threshold : t.registry.threshold = s.registry.threshold
  found : ∃ r', t.receiver n = some r' ∧ (r.state = .withdrawn → r'.state = .withdrawn)

/-- What the implicit return of receiver `n`, or none, leaves of the registry for the rest of RACK SEATED: what the seating
reads, and the other records and their slots (R101). -/
structure State.ReturnedTo (s t : State) (n : Nat) (r : Receiver) : Prop extends s.SeatsAs t n r where
  others : ∀ m, m ≠ n → t.receiver m = s.receiver m
  held : ∀ k m, m ≠ n → s.registry.slots.get k = some m → t.registry.slots.get k = some m
  free : ∀ k, s.registry.slots.get k = none ∨ s.registry.slots.get k = some n →
    t.registry.slots.get k = none ∨ t.registry.slots.get k = some n

/-- Another receiver that leaves the slot does not touch what the seating reads (R101). -/
theorem State.SeatsAs.displaced {t u : State} {m : Nat} {f : Receiver → Receiver} (h : s.SeatsAs t n r) (other : m ≠ n)
    (numbers : u.numbers = t.numbers) (threshold : u.registry.threshold = t.registry.threshold)
    (receiver : u.receiver = Function.update t.receiver m ((t.receiver m).map f)) : s.SeatsAs u n r where
  sorted := numbers ▸ h.sorted
  threshold := threshold.trans h.threshold
  found := by
    rw [receiver, Function.update_of_ne other.symm]
    exact h.found

theorem State.returnedTo_self {t : State} (agrees : s.rackMapAgrees) (found : s.receiver n = some r)
    (same : t.registry = s.registry) : s.ReturnedTo t n r where
  sorted := by
    rw [State.numbers_congr same]
    exact (s.rackMapAgrees_iff.mp agrees).1
  threshold := by rw [same]
  found := ⟨r, (congrFun (State.receiver_congr same) n).trans found, id⟩
  others m _ := congrFun (State.receiver_congr same) m
  held k m _ h := by rwa [same]
  free k h := by rwa [same]

theorem State.returnedTo_unrack {t : State} (agrees : s.rackMapAgrees) (found : s.receiver n = some r)
    (out : r.state = .onHire) (same : t.registry = (s.unrackReceiver n).registry) : s.ReturnedTo t n r := by
  obtain ⟨sorted, map⟩ := s.rackMapAgrees_iff.mp agrees
  have slots (k : Fin 512) : t.registry.slots.get k = if s.slotOf n = some k then none else s.registry.slots.get k := by
    rw [same, State.unrackReceiver_slots]
  refine ⟨⟨?_, ?_, r.unracked, ?_, fun h => by rw [out] at h; cases h⟩, fun m other => ?_, fun k m other h => ?_,
    fun k h => ?_⟩
  · rwa [State.numbers_congr same, State.unrackReceiver_numbers]
  · rw [same]
    exact s.freeSlot_threshold n
  · rw [State.receiver_congr same, State.unrackReceiver_receiver, Function.update_self, found]
    rfl
  · rw [State.receiver_congr same, State.unrackReceiver_receiver, Function.update_of_ne other]
  · rw [slots, if_neg, h]
    intro mine
    rw [(map k n).mpr mine] at h
    exact other (Option.some.inj h).symm
  · rw [slots]
    split
    · exact .inl rfl
    · exact h

theorem seatedResult_eq (taken : ReceiverState) (b : Nat) : seatedResult taken (decide (100 < b)) =
    if taken = .lost then .recovered else if b ≤ 100 then .ok else .okClamped := by
  unfold seatedResult
  simp only [decide_eq_true_eq, ← Nat.not_le, ite_not]

/-- The fields of RACK SEATED's answer, the receiver's state `x` first (R101). -/
def seatedFields (x : ReceiverState) (k : Fin 512) (b : Nat) (gone : Option Nat) (back : Option LineOutcome)
    (taken : ReceiverState) : List Byte :=
  be 1 x.code ++ be 2 (slotNo k) ++ be 1 (min 100 b) ++ optBytes 2 gone ++ seatedBytes back taken (decide (100 < b))

theorem seatedFields_eq (x : ReceiverState) (k : Fin 512) (b : Nat) (gone : Option Nat) (back : Option LineOutcome)
    (taken : ReceiverState) : seatedFields x k b gone back taken =
      be 1 x.code ++ be 2 (k.val + 1) ++ be 1 (min 100 b) ++ optBytes 2 gone ++ optBytes 2 (back.map (·.hire))
        ++ optBytes 1 (back.map fun o => if o.way.isSome then 1 else 0)
        ++ optBytes 1 ((back.bind (·.way)).map CloseWay.code)
        ++ optBytes 1 (if taken = .lost then some (if 100 < b then 1 else 0) else none) := by
  simp only [seatedFields, seatedBytes, slotNo, List.append_assoc, decide_eq_true_eq]

/-- RACK SEATED of a receiver with a record, by what its implicit return and the displacement do (R101, R102). -/
theorem exec_rackSeated {R D : State → State} {back : Option LineOutcome} {gone : Option Nat} {w : State}
    (ready : s.canTake .hire) (lo : 1 ≤ n) (hi : n ≤ 65535) (hb : b < 256) (found : s.receiver n = some r)
    (hR : State.Apart R) (hD : State.Apart D)
    (hw : w = R (s.taken .hire 0x37#8 (be 2 n ++ be 2 (k.val + 1) ++ be 1 b)))
    (returned : (s.taken .hire 0x37#8 (be 2 n ++ be 2 (k.val + 1) ++ be 1 b)).implicitReturn r = (w, back))
    (displaced : w.displace n k = (D w, gone)) (left : s.SeatsAs (D w) n r) :
    exec (.rackSeated .hire (be 2 n ++ be 2 (k.val + 1) ++ be 1 b)) s = .next
      ((((D (R (s.answered .hire 0x37#8 (seatedResult r.state (decide (100 < b)))
        (seatedFields (seatedState s.registry.threshold (min 100 b) r.state) k b gone back r.state)))).seat n k).modifyReceiver n
            (Receiver.settled (min 100 b) (seatedState s.registry.threshold (min 100 b) r.state) r.state)).clearMark n) := by
  obtain ⟨r', present, withdrawn⟩ := left.found
  have seat : State.Apart fun u => (D (R u)).seat n k :=
    (((State.freeSlot_apart n).setSlot (k := k) (v := some n)).modifyReceiver (n := n) (g := Receiver.seatedIn k)).comp
      (hD.comp hR)
  refine exec_of_apart (f := fun u => (((D (R u)).seat n k).modifyReceiver n (Receiver.settled (min 100 b)
      (seatedState s.registry.threshold (min 100 b) r.state) r.state)).clearMark n) ready (by simp [be]) rfl rfl
    (parsed := seatedParams? (be 2 n ++ be 2 (k.val + 1) ++ be 1 b)) (seatedParams?_bytes k lo hi hb)
    seat.modifyReceiver.clearMark ?_
  refine (rackSeated_of_some ((State.taken_receiver ..).trans found) returned displaced).trans ?_
  rw [State.seatAndPlace_code left.sorted present withdrawn, State.seatAndPlace_eq left.sorted present withdrawn,
    left.threshold, hw]
  rfl

end seated

/-- What the implicit return is, as an operation that leaves the request and answer slots apart, with the state it leaves
(R101 step 1). -/
theorem State.implicitReturn_apart (s : State) {n : Nat} {r : Receiver} (agrees : s.rackMapAgrees)
    (found : s.receiver n = some r) (p : Port) (c : Byte) (l : List Byte) : ∃ R : State → State, State.Apart R ∧
      (s.taken p c l).implicitReturn r =
        (R (s.taken p c l), if r.state = .onHire then some (s.returnReceiver r).2 else none) ∧
      s.ReturnedTo (R (s.taken p c l)) n r ∧ ∀ t, R t = if r.state = .onHire then (t.returnReceiver r).1 else t := by
  by_cases out : r.state = .onHire
  · refine ⟨fun t => (t.returnReceiver r).1, State.returnReceiver_apart r, ?_, ?_, fun t => by rw [if_pos out]⟩
    · rw [if_pos out, ← State.returnReceiver_outcome p c l]
      simp only [State.implicitReturn, out]
    · refine State.returnedTo_unrack agrees found out ((State.returnReceiver_registry ..).trans ?_)
      rw [s.receiver_number found]
      exact State.unrackReceiver_registry_congr (State.taken_registry ..) n
  · refine ⟨fun t => t, State.Apart.id, ?_, State.returnedTo_self agrees found (State.taken_registry ..),
      fun t => by rw [if_neg out]⟩
    rw [if_neg out]
    unfold State.implicitReturn
    split
    · contradiction
    all_goals rfl

/-! ### RACK REMOVED (R104) -/

section removed
variable {s : State} {k : Fin 512} {m : Nat} {q : Receiver}

theorem State.pullFromRack_apart (m : Nat) (k : Fin 512) (c : Nat) : State.Apart fun s => s.pullFromRack m k c :=
  ((State.clearMark_apart m).freeSlot.modifyReceiver (n := m) (g := fun r => { r with state := .unracked })).notify

theorem rackRemoved_of_racked (held : s.registry.slots.get k = some m) (found : s.receiver m = some q)
    (racked : q.state.racked = true) : rackRemoved k s = ⟨s.pullFromRack m k 2, .ok, be 2 m ++ be 1 4⟩ := by
  have pulled : s.pull m k = s.pullFromRack m k 2 := by simp [State.pull, found, racked]
  have code : (s.pullFromRack m k 2).receiverCode m = 4 := by
    refine State.receiverCode_of_some (r := q.pulled) ?_
    rw [State.pullFromRack_receiver, Function.update_self, found]
    rfl
  simp only [rackRemoved, held, pulled, code]

theorem rackRemoved_of_other (held : s.registry.slots.get k = some m) (found : s.receiver m = some q)
    (other : q.state.racked = false) :
    rackRemoved k s = ⟨(s.clearMark m).freeSlot m, .ok, be 2 m ++ be 1 q.state.code⟩ := by
  have pulled : s.pull m k = (s.clearMark m).freeSlot m := by simp [State.pull, found, other]
  have code : ((s.clearMark m).freeSlot m).receiverCode m = q.state.code := by
    refine State.receiverCode_of_some (r := q.unmarked.unslotted) ?_
    rw [State.freeSlot_receiver, Function.update_self, State.clearMark_receiver, Function.update_self, found]
    rfl
  simp only [rackRemoved, held, pulled, code]

end removed

end Sys2Proof.Machine

namespace Sys2Proof.Proofs
open Sys2Proof Sys2Proof.Machine

/-- Settles O48: a slot freed or taken by what it leaves of the map and the records (`State.Racks`), RACK SEATED by what the
implicit return and the displacement leave for the seating (`exec_rackSeated`), and RACK REMOVED by whether the receiver is
racked. -/
theorem rackEventsSeatAndFree : Obligations.RackEventsSeatAndFree := by
  refine ⟨fun s n r found => ⟨State.freeSlot_of_none found, ?_, ?_⟩, fun s n k b ready lo hi hb => ⟨fun unknown => ?_, ?_⟩,
    fun s k ready => ⟨fun empty => ?_, fun m q held found => ⟨fun racked => ?_, fun notReady notCharging => ?_⟩⟩,
    fun s m k cause => rfl⟩
  · rintro j _ held rfl
    refine ⟨fun i => ?_, ?_, State.freeSlot_racks found held⟩
    · rw [State.freeSlot_slots, State.slotOf, found, Option.bind_some, held]
      simp only [Option.some.injEq, eq_comm]
    · rw [State.freeSlot_of_some found held]
      rfl
  · rintro k _ rfl
    refine ⟨fun i => ?_, State.seat_receivers found k, State.seat_racks found k⟩
    rw [State.seat_slots, State.slotOf, found, Option.bind_some]
  · refine exec_of_plain ready (by simp [be]) rfl rfl (parsed := seatedParams? (be 2 n ++ be 2 (k.val + 1) ++ be 1 b))
      (seatedParams?_bytes k lo hi hb) ?_
    simp [rackSeated, unknown, State.refuse]
  · intro r found fields x u back gone hx hfields stays leaves vacant other agrees
    obtain rfl : x = seatedState s.registry.threshold (min 100 b) r.state := hx
    obtain ⟨R, apart, returned, left, hR⟩ := s.implicitReturn_apart agrees found .hire 0x37#8
      (be 2 n ++ be 2 (k.val + 1) ++ be 1 b)
    have hback : (if r.state = .onHire then some (s.returnReceiver r).2 else none) = back := by
      split
      · next out => exact (leaves out).1.symm
      · next out => exact (stays out).1.symm
    have hu : R (s.answered .hire 0x37#8 (seatedResult r.state (decide (100 < b)))
        (seatedFields (seatedState s.registry.threshold (min 100 b) r.state) k b gone back r.state)) = u := by
      rw [hR, seatedResult_eq, ← hfields.trans (seatedFields_eq ..).symm]
      split
      · next out => rw [(leaves out).2, if_neg (by rw [out]; nofun)]
      · next out => exact (stays out).2.symm
    rw [hback] at returned
    refine ⟨fun absent => ?_, fun m q present known => ?_⟩
    · have free : s.registry.slots.get k = none ∨ s.registry.slots.get k = some n := by
        cases holder : s.registry.slots.get k with
        | none => exact .inl rfl
        | some m =>
          by_cases same : m = n
          · exact .inr (congrArg _ same)
          · cases absent.symm.trans (other m holder same)
      subst absent hu
      exact exec_rackSeated (D := id) ready lo hi hb found apart State.Apart.id rfl returned
        (State.displace_of_free (left.free k free)) left.toSeatsAs
    · obtain ⟨holder, another⟩ : s.registry.slots.get k = some m ∧ m ≠ n := by
        cases holder : s.registry.slots.get k with
        | none => cases present.symm.trans (vacant (.inl holder))
        | some j =>
          by_cases same : j = n
          · cases present.symm.trans (vacant (.inr (same ▸ holder)))
          · cases present.symm.trans (other j holder same)
            exact ⟨rfl, same⟩
      have displaced := State.displace_of_held (left.held k m another holder) another ((left.others m another).trans known)
      subst present hu
      refine ⟨fun racked => ?_, fun notReady notCharging => ?_⟩
      · rw [if_pos (by simpa [ReceiverState.racked_eq] using racked)] at displaced
        exact exec_rackSeated (D := fun v => v.pullFromRack m k 1) ready lo hi hb found apart (State.pullFromRack_apart m k 1)
          rfl returned displaced
          (left.displaced another (State.pullFromRack_numbers ..) (State.pullFromRack_threshold ..)
            (State.pullFromRack_receiver ..))
      · rw [if_neg (by simp [ReceiverState.racked_eq, notReady, notCharging])] at displaced
        exact exec_rackSeated (D := fun v => v.freeSlot m) ready lo hi hb found apart (State.freeSlot_apart m) rfl
          returned displaced
          (left.displaced another (State.freeSlot_numbers ..) (State.freeSlot_threshold ..) (State.freeSlot_receiver ..))
  · refine exec_of_plain ready (by simp [be]) rfl rfl (parsed := slotParam? (be 2 (k.val + 1))) (slotParam?_bytes k) ?_
    simp [rackRemoved, empty, State.refuse]
  · refine exec_of_apart (f := fun u => u.pullFromRack m k 2) ready (by simp [be]) rfl rfl
      (parsed := slotParam? (be 2 (k.val + 1))) (slotParam?_bytes k) (State.pullFromRack_apart m k 2) ?_
    exact rackRemoved_of_racked (by simpa using held) (by simpa using found) (by simpa [ReceiverState.racked_eq] using racked)
  · refine exec_of_apart (f := fun u => (u.clearMark m).freeSlot m) ready (by simp [be]) rfl rfl
      (parsed := slotParam? (be 2 (k.val + 1))) (slotParam?_bytes k) (State.clearMark_apart m).freeSlot ?_
    exact rackRemoved_of_other (by simpa using held) (by simpa using found)
      (by simp [ReceiverState.racked_eq, notReady, notCharging])

end Sys2Proof.Proofs
end

section
/-! SUPPORT. Scope, the laws of the racks, the demand counts and the hire lines (R92, R94, R112, R128): what the laws read, the
`Ledger`, and the writes, the passes and the Booth Section, which leave it. -/

namespace Sys2Proof.Machine

/-! ### What the laws read -/

/-- What the laws of the racks, the demand counts and the hire lines read: the start-up state, the receiver records and the slot
map, the Hire Table, and the demand count of each program. -/
structure Ledger where
  startup : Startup
  receivers : List Receiver
  slots : Table (Option Nat) 512
  hires : HireTable
  demand : Prog → Nat

/-- The ledger that stands in a state. -/
def State.ledger (s : State) : Ledger :=
  ⟨s.startup, s.registry.receivers, s.registry.slots, s.hires, fun p => (s.program p).demand⟩

section congr
variable {s t : State} (h : t.ledger = s.ledger)
include h

theorem State.ledger_startup : t.startup = s.startup := congrArg Ledger.startup h
theorem State.ledger_receivers : t.registry.receivers = s.registry.receivers := congrArg Ledger.receivers h
theorem State.ledger_slots : t.registry.slots = s.registry.slots := congrArg Ledger.slots h
theorem State.ledger_hires : t.hires = s.hires := congrArg Ledger.hires h
theorem State.ledger_demand (p : Prog) : (t.program p).demand = (s.program p).demand := congrFun (congrArg Ledger.demand h) p

theorem State.rackMapAgrees_congr (law : s.rackMapAgrees) : t.rackMapAgrees := by
  unfold State.rackMapAgrees
  rwa [State.ledger_receivers h, State.ledger_slots h]

theorem State.demandCounted_congr (law : s.demandCounted) : t.demandCounted := by
  have counted (p : Prog) : t.demandOf p = s.demandOf p := by
    unfold State.demandOf
    rw [State.ledger_hires h]
  unfold State.demandCounted
  simp only [State.ledger_hires h, State.ledger_startup h, State.ledger_demand h, counted]
  exact law

end congr

/-! ### Writes that leave the ledger -/

section writes
variable (s : State)

@[simp] theorem State.modifyDesk_ledger (d : DeskId) (f : Desk → Desk) : (s.modifyDesk d f).ledger = s.ledger := rfl
@[simp] theorem State.setDeskState_ledger (d : DeskId) (x : DeskState) : (s.setDeskState d x).ledger = s.ledger := rfl
@[simp] theorem State.setBoothConfig_ledger (b : Fin 24) (c : BoothConfig) : (s.setBoothConfig b c).ledger = s.ledger := rfl
@[simp] theorem State.setRequest_ledger (b : Fin 24) (r : Option HandoverRequest) : (s.setRequest b r).ledger = s.ledger := rfl
@[simp] theorem State.setInterpreters_ledger (l : List Interpreter) : (s.setInterpreters l).ledger = s.ledger := rfl
@[simp] theorem State.modifyInterpreter_ledger (n : Nat) (f : Interpreter → Interpreter) :
    (s.modifyInterpreter n f).ledger = s.ledger := rfl
@[simp] theorem State.setStocktake_ledger (k : Stocktake) : (s.setStocktake k).ledger = s.ledger := rfl
@[simp] theorem State.setQueue_ledger (l : List Settled) : (s.setQueue l).ledger = s.ledger := rfl
@[simp] theorem State.setClock_ledger (t : HallTime) (v : Bool) : (s.setClock t v).ledger = s.ledger := rfl
@[simp] theorem State.restartTickWatch_ledger : s.restartTickWatch.ledger = s.ledger := rfl
@[simp] theorem State.setSession_ledger (x : Session) : (s.setSession x).ledger = s.ledger := rfl
@[simp] theorem State.modifyCounters_ledger (f : DayCounters → DayCounters) : (s.modifyCounters f).ledger = s.ledger := rfl
@[simp] theorem State.setDay_ledger (n : Nat) (c : DayCounters) (d : Option DaySummary) :
    (s.setDay n c d).ledger = s.ledger := rfl
@[simp] theorem State.updateLink_ledger (f : Link → Link) : (s.updateLink f).ledger = s.ledger := rfl
@[simp] theorem State.setHold_ledger (h : Option Shadow) : (s.setHold h).ledger = s.ledger := rfl
@[simp] theorem State.setBudget_ledger (k : Fin 8) (v : Nat) : (s.setBudget k v).ledger = s.ledger := rfl
@[simp] theorem State.refuse_ledger (r : Result) : (s.refuse r).state.ledger = s.ledger := rfl

/-- A change of the program records that leaves the demand counts. -/
theorem State.ledger_of_programs {s t : State} (startup : t.startup = s.startup) (registry : t.registry = s.registry)
    (hires : t.hires = s.hires) (demand : ∀ p, (t.program p).demand = (s.program p).demand) : t.ledger = s.ledger := by
  unfold State.ledger
  rw [startup, registry, hires, funext demand]

theorem State.modifyProgram_ledger (p : Prog) {f : Program → Program} (hf : ∀ r : Program, (f r).demand = r.demand) :
    (s.modifyProgram p f).ledger = s.ledger := by
  refine State.ledger_of_programs rfl rfl rfl fun q => ?_
  show ((s.programs.modify p f).get q).demand = _
  rw [Table.get_modify]
  split
  · next same => rw [hf, same]; rfl
  · rfl

theorem State.writePrograms_ledger {f : Prog → Program → Program} (hf : ∀ p (r : Program), (f p r).demand = r.demand) :
    (s.writePrograms f).ledger = s.ledger := by
  refine State.ledger_of_programs rfl rfl rfl fun q => ?_
  show ((s.programs.mapIdx f).get q).demand = _
  rw [Table.get_mapIdx, hf]
  rfl

@[simp] theorem State.setProgConfig_ledger (p : Prog) (c : ProgConfig) : (s.setProgConfig p c).ledger = s.ledger :=
  s.modifyProgram_ledger p fun _ => rfl

@[simp] theorem State.loseLive_ledger (p : Prog) (c : OffAirCause) : (s.loseLive p c).ledger = s.ledger :=
  s.modifyProgram_ledger p fun _ => rfl

end writes

/-! ### Notices, faults and passes -/

theorem State.Reports.ledger {s t : State} (h : s.Reports t) : t.ledger = s.ledger := by
  rw [show t = _ from h]
  rfl

section notices
variable (s : State)

@[simp] theorem State.notify_ledger (k : NoticeKind) (a b c d : Nat) : (s.notify k a b c d).ledger = s.ledger :=
  (s.notify_reports k a b c d).ledger

@[simp] theorem State.raiseFault_ledger (f : FaultKind) (c : Nat) : (s.raiseFault f c).ledger = s.ledger :=
  (s.raiseFault_reports f c).ledger

@[simp] theorem State.raiseNow_ledger (f : FaultKind) (c : Nat) : (s.raiseNow f c).ledger = s.ledger :=
  (s.raiseNow_reports f c).ledger

theorem State.foldl_ledger {α : Type} {f : State → α → State} (hf : ∀ u a, (f u a).ledger = u.ledger) (l : List α) :
    (l.foldl f s).ledger = s.ledger := by
  induction l generalizing s with
  | nil => rfl
  | cons a rest ih => exact (ih _).trans (hf s a)

@[simp] theorem State.derivationPass_ledger : s.derivationPass.ledger = s.ledger := by
  have programs := s.derivationPass_programs
  have frame := s.derivationPass_frame
  generalize s.derivationPass = u at programs frame ⊢
  rw [frame]
  refine State.ledger_of_programs rfl rfl rfl fun p => ?_
  show (u.programs.get p).demand = _
  rw [programs, Table.get_mapIdx]
  rfl

@[simp] theorem State.allocationPass_ledger : s.allocationPass.ledger = s.ledger := by
  have frame := s.allocationPass_frame
  generalize s.allocationPass = u at frame ⊢
  rw [frame]
  refine State.ledger_of_programs rfl rfl rfl fun p => ?_
  show ((s.programs.mapIdx (passProgram _)).get p).demand = _
  rw [Table.get_mapIdx]
  rfl

end notices

/-! ### The Booth Section leaves the ledger -/

section booth
variable (s : State)

@[simp] theorem State.cut_ledger (d : DeskId) (c : OffAirCause) : (s.cut d c).ledger = s.ledger := by
  unfold State.cut
  split <;> simp

@[simp] theorem State.dropRequest_ledger (b : Fin 24) (c : DropCause) : (s.dropRequest b c).ledger = s.ledger := by
  unfold State.dropRequest
  split <;> simp

@[simp] theorem State.overrideCut_ledger (d : DeskId) : (s.overrideCut d).ledger = s.ledger := by
  unfold State.overrideCut
  dsimp only
  repeat' split
  all_goals simp

@[simp] theorem State.cutMarked_ledger (m : Option DeskId) : (s.cutMarked m).ledger = s.ledger := by
  cases m with
  | none => rfl
  | some e => exact s.overrideCut_ledger e

@[simp] theorem State.goLive_ledger (d : DeskId) (o : Output) : (s.goLive d o).ledger = s.ledger := by
  unfold State.goLive
  split
  · refine (State.modifyInterpreter_ledger ..).trans (State.modifyProgram_ledger _ _ ?_)
    exact fun _ => rfl
  · rfl

@[simp] theorem State.finishHandover_ledger (b : Fin 24) (x y : Fin 3) (n : Nat) :
    (s.finishHandover b x y n).ledger = s.ledger := by
  simp [State.finishHandover]

@[simp] theorem State.failHandover_ledger (b : Fin 24) (x : Fin 3) (p : Prog) (e : DeskId) :
    (s.failHandover b x p e).ledger = s.ledger := by
  simp [State.failHandover]

@[simp] theorem State.completeHandover_ledger (b : Fin 24) (x : Fin 3) (r : HandoverRequest) (e : Option DeskId) (n : Nat) :
    (s.completeHandover b x r e n).ledger = s.ledger := by
  cases e <;> simp [State.completeHandover]

@[simp] theorem State.release_ledger (d : DeskId) : (s.release d).ledger = s.ledger := by
  unfold State.release
  dsimp only
  repeat' split
  all_goals simp

@[simp] theorem State.forceHandover_ledger (b : Fin 24) (r : HandoverRequest) : (s.forceHandover b r).ledger = s.ledger := by
  unfold State.forceHandover
  dsimp only
  repeat' split
  all_goals simp

@[simp] theorem State.vacate_ledger (d : DeskId) : (s.vacate d).ledger = s.ledger := by
  unfold State.vacate
  split <;> simp

@[simp] theorem State.switchOutput_ledger (d : DeskId) (o : Output) (p : Prog) :
    (s.switchOutput d o p).ledger = s.ledger := by
  unfold State.switchOutput
  split
  · refine (State.modifyProgram_ledger _ _ ?_).trans (s.loseLive_ledger _ _)
    exact fun _ => rfl
  · rfl

@[simp] theorem State.boothTick_ledger : s.boothTick.ledger = s.ledger := by
  rw [State.boothTick_frame]
  rfl

@[simp] theorem State.leaveLive_ledger : s.leaveLive.ledger = s.ledger := by
  unfold State.leaveLive
  dsimp only
  rw [State.derivationPass_ledger, State.foldl_ledger _ fun u b => by split <;> simp,
    State.foldl_ledger _ fun u i => by simp]
  rfl

theorem login_ledger (d : DeskId) (id : Nat) : (login d id s).state.ledger = s.ledger := by
  unfold login
  dsimp only
  repeat' split
  all_goals simp

theorem logout_ledger (d : DeskId) : (logout d s).state.ledger = s.ledger := by
  unfold logout
  dsimp only
  repeat' split
  all_goals simp

theorem takeAir_ledger (d : DeskId) (o : Output) (p : Prog) (m : Option DeskId) :
    (takeAir d o p m s).state.ledger = s.ledger := by
  unfold takeAir State.askHandover State.micAnswer State.pendingAnswer
  repeat' split
  all_goals simp

theorem micOn_ledger (d : DeskId) (o : Output) : (micOn d o s).state.ledger = s.ledger := by
  unfold micOn
  repeat' split
  all_goals simp [takeAir_ledger]

theorem micOff_ledger (d : DeskId) : (micOff d s).state.ledger = s.ledger := by
  unfold micOff
  repeat' split
  all_goals simp

theorem cancelHandover_ledger (b : Fin 24) : (cancelHandover b s).state.ledger = s.ledger := by
  unfold cancelHandover
  split <;> simp

theorem selectSource_ledger (d : DeskId) (x : Source) : (selectSource d x s).state.ledger = s.ledger := by
  unfold selectSource State.selectAnswer
  dsimp only
  repeat' split
  all_goals simp

theorem readInterpreter_ledger (x : Nat ⊕ Nat) : (readInterpreter x s).state.ledger = s.ledger := by
  unfold readInterpreter State.interpreterAnswer
  repeat' split
  all_goals rfl

end booth

/-! ### Configuration and the plan hold leave the ledger -/

section config
variable (s : State)

@[simp] theorem State.writeBooth_ledger (b : Fin 24) (c : BoothConfig) : (s.writeBooth b c).ledger = s.ledger := by
  unfold State.writeBooth
  dsimp only
  split
  · rfl
  · split
    · rfl
    · exact State.derivationPass_ledger _

theorem setBooth_ledger (a : BoothArgs) : (setBooth a s).state.ledger = s.ledger := by
  unfold setBooth
  repeat' split
  all_goals simp

@[simp] theorem State.unconfigure_ledger (p : Prog) : (s.unconfigure p).ledger = s.ledger := by
  refine (State.derivationPass_ledger _).trans
    (s.modifyProgram_ledger p (f := fun r => { r with radiation := .unconfigured }) ?_)
  exact fun _ => rfl

@[simp] theorem State.commitProgram_ledger (p : Prog) (c : ProgConfig) : (s.commitProgram p c).ledger = s.ledger := by
  unfold State.commitProgram
  dsimp only
  repeat' split
  all_goals simp

theorem setProgram_ledger (p : Prog) (c : ProgConfig) : (setProgram p c s).state.ledger = s.ledger := by
  unfold setProgram State.writeProgram
  dsimp only
  repeat' split
  all_goals simp

theorem planHold_ledger (x : Unit) : (planHold x s).state.ledger = s.ledger := by
  unfold planHold
  split <;> rfl

theorem planAbandon_ledger (x : Unit) : (planAbandon x s).state.ledger = s.ledger := by
  unfold planAbandon
  split <;> rfl

theorem readPlan_ledger (x : PlanSelector) : (readPlan x s).state.ledger = s.ledger := by
  unfold readPlan
  split <;> rfl

@[simp] theorem State.releasePlan_ledger (h : Shadow) : (s.releasePlan h).ledger = s.ledger := by
  unfold State.releasePlan
  rw [State.setHold_ledger, State.allocationPass_ledger, State.derivationPass_ledger]
  refine State.writePrograms_ledger s ?_
  exact fun _ _ => rfl

theorem planRelease_ledger (x : Unit) : (planRelease x s).state.ledger = s.ledger := by
  unfold planRelease
  repeat' split
  all_goals simp

theorem setBankBudget_ledger (k : Fin 8) (v : Nat) : (setBankBudget k v s).state.ledger = s.ledger := by
  unfold setBankBudget
  dsimp only
  split <;> simp

@[simp] theorem State.takeBank_ledger (b : Fin 8) : (s.takeBank b).ledger = s.ledger := State.notify_ledger _ _ _ _ _ _

end config

/-! ### Session and Clock, the link and the ports leave the ledger -/

section session
variable (s : State)

@[simp] theorem State.takeOpportunity_ledger : s.takeOpportunity.ledger = s.ledger := by
  unfold State.takeOpportunity
  repeat' split
  all_goals simp

@[simp] theorem State.changeSession_ledger (x : Session) : (s.changeSession x).state.ledger = s.ledger := by
  simp [State.changeSession]

@[simp] theorem State.loadClock_ledger (x : HallTime) : (s.loadClock x).ledger = s.ledger := by
  unfold State.loadClock
  dsimp only
  split <;> simp

@[simp] theorem State.closeDay_ledger : s.closeDay.ledger = s.ledger := by
  unfold State.closeDay
  dsimp only
  rw [State.setDay_ledger, State.setInterpreters_ledger]
  refine s.writePrograms_ledger ?_
  exact fun _ _ => rfl

@[simp] theorem State.clockTick_ledger : s.clockTick.ledger = s.ledger := rfl

@[simp] theorem State.outageTick_ledger : s.outageTick.ledger = s.ledger := by
  unfold State.outageTick
  split
  · refine s.writePrograms_ledger fun _ _ => ?_
    split <;> rfl
  · rfl

theorem openSession_ledger (x : Unit) : (openSession x s).state.ledger = s.ledger := by
  unfold openSession
  repeat' split
  all_goals simp

theorem recess_ledger (x : Unit) : (recess x s).state.ledger = s.ledger := by
  unfold recess
  split <;> simp

theorem resume_ledger (x : Unit) : (resume x s).state.ledger = s.ledger := by
  unfold resume
  split <;> simp

theorem endSession_ledger (x : Unit) : (endSession x s).state.ledger = s.ledger := by
  unfold endSession
  split <;> simp

theorem dayClose_ledger (x : Unit) : (dayClose x s).state.ledger = s.ledger := by
  unfold dayClose
  split <;> simp

theorem readDaySummary_ledger (x : Unit) : (readDaySummary x s).state.ledger = s.ledger := by
  unfold readDaySummary
  dsimp only
  split <;> rfl

theorem readNotice_ledger (p : Port) (x : Unit) : (readNotice p x s).state.ledger = s.ledger := by
  unfold readNotice
  dsimp only
  split
  · rfl
  · exact (s.setPort_reports p _).ledger

theorem portReset_ledger (q : Port) : (portReset q s).state.ledger = s.ledger := by
  cases q <;> rfl

theorem readReceiver_ledger (x : ReceiverSelector) : (readReceiver x s).state.ledger = s.ledger := by
  unfold readReceiver
  split <;> rfl

theorem readHire_ledger (x : HireSelector) (b : Bool) : (readHire x b s).state.ledger = s.ledger := by
  unfold readHire
  split <;> rfl

theorem findBadge_ledger (n : Nat) : (findBadge n s).state.ledger = s.ledger := by
  unfold findBadge
  split <;> rfl

end session

end Sys2Proof.Machine
end

section
/-! SUPPORT. Scope, the law of the racks (R92, R94): the slot map and the records, read by receiver, under each operation of the
registry. `State.rackMapAgrees` passes by three rules: the slots stand, a receiver leaves its slot, a receiver takes one. -/

namespace Sys2Proof.Machine

/-! ### How the law passes -/

section rules
variable {s t : State} {n : Nat} (law : s.rackMapAgrees)
include law

/-- The numbers and the slots stand. -/
theorem State.rackMapAgrees.of_slotOf (numbers : t.numbers = s.numbers) (slots : t.registry.slots = s.registry.slots)
    (slotOf : t.slotOf = s.slotOf) : t.rackMapAgrees := by
  rw [State.rackMapAgrees_iff] at law ⊢
  rwa [numbers, slots, slotOf]

/-- Receiver `n` leaves its slot, if it holds one: the map entry and the record's slot together (R94). -/
theorem State.rackMapAgrees.of_freed (numbers : t.numbers = s.numbers)
    (slots : ∀ i, t.registry.slots.get i = if s.slotOf n = some i then none else s.registry.slots.get i)
    (slotOf : t.slotOf = Function.update s.slotOf n none) : t.rackMapAgrees := by
  obtain ⟨sorted, map⟩ := s.rackMapAgrees_iff.mp law
  refine t.rackMapAgrees_iff.mpr ⟨numbers ▸ sorted, fun k m => ?_⟩
  rw [slots, slotOf, Function.update_apply]
  have mine := map k n
  have other := map k m
  grind

/-- Receiver `n` takes slot `k`, free or its own, and leaves the slot it held (R94). -/
theorem State.rackMapAgrees.of_seated {k : Fin 512} (numbers : t.numbers = s.numbers)
    (slots : ∀ i, t.registry.slots.get i =
      if i = k then some n else if s.slotOf n = some i then none else s.registry.slots.get i)
    (slotOf : t.slotOf = Function.update s.slotOf n (some k))
    (vacant : s.registry.slots.get k = none ∨ s.registry.slots.get k = some n) : t.rackMapAgrees := by
  obtain ⟨sorted, map⟩ := s.rackMapAgrees_iff.mp law
  refine t.rackMapAgrees_iff.mpr ⟨numbers ▸ sorted, fun i m => ?_⟩
  rw [slots, slotOf, Function.update_apply]
  have mine := map i n
  have other := map i m
  have holder := map k m
  grind

/-- The records changed all at once, each keeping its number and its slot. -/
theorem State.rackMapAgrees.of_map {f : Receiver → Receiver} (hf : ∀ r, (f r).number = r.number ∧ (f r).slot = r.slot)
    (receivers : t.registry.receivers = s.registry.receivers.map f) (slots : t.registry.slots = s.registry.slots) :
    t.rackMapAgrees := by
  obtain ⟨sorted, map⟩ := law
  refine ⟨?_, fun k m => ?_⟩
  · rw [receivers, List.pairwise_map]
    simpa only [hf] using sorted
  · rw [slots, map, receivers]
    simp [hf]

end rules

/-- The slots by receiver, after a change of one record. -/
theorem State.slotOf_of_receiver {s t : State} {n : Nat} {x : Option Receiver}
    (h : t.receiver = Function.update s.receiver n x) : t.slotOf = Function.update s.slotOf n (x.bind (·.slot)) := by
  funext m
  rw [State.slotOf, h]
  by_cases same : m = n
  · subst same
    simp
  · simp only [Function.update_of_ne same]
    rfl

/-- The displacement leaves the record of the receiver that takes the slot (R101 step 2). -/
theorem State.displace_receiver (s : State) (n : Nat) (k : Fin 512) : (s.displace n k).1.receiver n = s.receiver n := by
  unfold State.displace
  split
  · rfl
  · next m _ =>
    split
    · rfl
    · next other =>
      split
      · rfl
      · split
        · rw [State.pullFromRack_receiver, Function.update_of_ne (Ne.symm other)]
        · rw [State.freeSlot_receiver, Function.update_of_ne (Ne.symm other)]

/-! ### The registry's operations keep the law -/

section operations
variable {s : State} {n m : Nat} {k : Fin 512} (law : s.rackMapAgrees)
include law

theorem State.rackMapAgrees.modifyReceiver {f : Receiver → Receiver}
    (hf : ∀ r, (f r).number = r.number ∧ (f r).slot = r.slot) : (s.modifyReceiver n f).rackMapAgrees := by
  refine law.of_map (f := fun r => if r.number = n then f r else r) (fun r => ?_) rfl rfl
  split
  · exact hf r
  · exact ⟨rfl, rfl⟩

theorem State.rackMapAgrees.setReceiverState {x : ReceiverState} : (s.setReceiverState n x).rackMapAgrees :=
  law.modifyReceiver fun _ => ⟨rfl, rfl⟩

theorem State.rackMapAgrees.clearMark : (s.clearMark n).rackMapAgrees :=
  law.of_slotOf (s.clearMark_numbers n) (s.clearMark_slots n) (s.clearMark_slotOf n)

theorem State.rackMapAgrees.freeSlot : (s.freeSlot n).rackMapAgrees := by
  refine law.of_freed (s.freeSlot_numbers n) (s.freeSlot_slots n) ?_
  rw [State.slotOf_of_receiver (s.freeSlot_receiver n), Option.bind_map]
  cases s.receiver n <;> rfl

theorem State.rackMapAgrees.issueReceiver {h : Nat} : (s.issueReceiver n h).rackMapAgrees :=
  law.clearMark.modifyReceiver fun _ => ⟨rfl, rfl⟩

theorem State.rackMapAgrees.unrackReceiver : (s.unrackReceiver n).rackMapAgrees :=
  law.freeSlot.modifyReceiver fun _ => ⟨rfl, rfl⟩

theorem State.rackMapAgrees.loseReceiver {h : Nat} : (s.loseReceiver n h).rackMapAgrees :=
  law.freeSlot.modifyReceiver fun _ => ⟨rfl, rfl⟩

theorem State.rackMapAgrees.pullFromRack {c : Nat} : (s.pullFromRack m k c).rackMapAgrees :=
  State.rackMapAgrees_congr (State.notify_ledger ..) law.clearMark.freeSlot.setReceiverState

theorem State.rackMapAgrees.seat {r : Receiver} (found : s.receiver n = some r)
    (vacant : s.registry.slots.get k = none ∨ s.registry.slots.get k = some n) : (s.seat n k).rackMapAgrees := by
  refine law.of_seated (s.seat_numbers n k) (s.seat_slots n k) ?_ vacant
  rw [State.slotOf_of_receiver (s.seat_receiver n k), found]
  rfl

/-- Under the law the map names no receiver without a record (R94). -/
theorem State.rackMapAgrees.found (held : s.registry.slots.get k = some m) : ∃ r, s.receiver m = some r ∧ r.slot = some k :=
  Option.bind_eq_some_iff.mp (((s.rackMapAgrees_iff.mp law).2 k m).mp held)

/-- The displacement frees slot `k` for receiver `n` (R101 step 2). -/
theorem State.rackMapAgrees.displace : (s.displace n k).1.rackMapAgrees ∧
    ((s.displace n k).1.registry.slots.get k = none ∨ (s.displace n k).1.registry.slots.get k = some n) := by
  by_cases vacant : s.registry.slots.get k = none ∨ s.registry.slots.get k = some n
  · rw [State.displace_of_free vacant]
    exact ⟨law, vacant⟩
  · obtain ⟨m, held⟩ := Option.ne_none_iff_exists'.mp fun none => vacant (.inl none)
    have other : m ≠ n := fun same => vacant (.inr (same ▸ held))
    obtain ⟨r, found, slot⟩ := law.found held
    have seated : s.slotOf m = some k := ((s.rackMapAgrees_iff.mp law).2 k m).mp held
    rw [State.displace_of_held held other found]
    split
    · refine ⟨law.pullFromRack, .inl ?_⟩
      rw [State.pullFromRack_slots, if_pos seated]
    · refine ⟨law.freeSlot, .inl ?_⟩
      rw [State.freeSlot_slots, if_pos seated]

theorem State.rackMapAgrees.seatAndPlace {r : Receiver} {b : Nat} {x : ReceiverState} (found : s.receiver n = some r)
    (vacant : s.registry.slots.get k = none ∨ s.registry.slots.get k = some n) :
    (s.seatAndPlace n k b x).rackMapAgrees := by
  refine ((law.seat found vacant).modifyReceiver fun r => ?_).clearMark
  cases x <;> exact ⟨rfl, rfl⟩

theorem State.rackMapAgrees.pull : (s.pull m k).rackMapAgrees ∨ s.registry.slots.get k ≠ some m := by
  by_cases held : s.registry.slots.get k = some m
  · obtain ⟨r, found, -⟩ := law.found held
    refine .inl ?_
    unfold State.pull
    rw [found]
    dsimp only
    split
    · exact law.pullFromRack
    · exact law.clearMark.freeSlot
  · exact .inr held

end operations

/-! ### The operator's commands and the stocktake keep the law -/

theorem Receiver.endStocktake_number (r : Receiver) : r.endStocktake.number = r.number := by
  unfold Receiver.endStocktake
  split <;> rfl

theorem Receiver.endStocktake_slot {r : Receiver} {k : Fin 512} :
    r.endStocktake.slot = some k ↔ r.mark = false ∧ r.slot = some k := by
  unfold Receiver.endStocktake
  cases r.mark <;> simp

section bodies
variable {s : State} (law : s.rackMapAgrees)
include law

/-- A new record in no slot (R96). -/
theorem enrolReceiver_rackMapAgrees (n : Nat) : (enrolReceiver n s).state.rackMapAgrees := by
  unfold enrolReceiver
  dsimp only
  split
  · exact law
  · next unknown =>
    split
    · exact law
    · have fresh : ∀ r ∈ s.registry.receivers, r.number ≠ n := fun r mem same =>
        unknown ((s.receiver_isSome n).mpr ⟨r, mem, same⟩)
      refine ⟨insertAsc_pairwise (key := Receiver.number) law.1 fresh, fun k m => (law.2 k m).trans ?_⟩
      have perm := insertAsc_perm (key := Receiver.number) (.enrolled n) s.registry.receivers
      have members (r : Receiver) := perm.mem_iff (a := r)
      constructor
      · rintro ⟨r, mem, same⟩
        exact ⟨r, (members r).mpr (List.mem_cons_of_mem _ mem), same⟩
      · rintro ⟨r, mem, same, held⟩
        rcases List.mem_cons.mp ((members r).mp mem) with rfl | mem
        · cases held
        · exact ⟨r, mem, same, held⟩

theorem withdrawReceiver_rackMapAgrees (n : Nat) : (withdrawReceiver n s).state.rackMapAgrees := by
  unfold withdrawReceiver
  split
  · exact law
  · split
    · exact law
    all_goals rw [withdrawAnswer_state]
    · exact law
    · exact law.clearMark.setReceiverState
    · exact law.clearMark.setReceiverState
    · exact law.clearMark.setReceiverState
    · exact law.modifyReceiver fun _ => ⟨rfl, rfl⟩

theorem reinstateReceiver_rackMapAgrees (n : Nat) : (reinstateReceiver n s).state.rackMapAgrees := by
  unfold reinstateReceiver
  split
  · exact law
  · split
    · exact law.setReceiverState
    · exact law

/-- The record goes with its slot freed (R99). -/
theorem deleteReceiver_rackMapAgrees (n : Nat) : (deleteReceiver n s).state.rackMapAgrees := by
  unfold deleteReceiver
  split
  · exact law
  · next r found =>
    split
    · obtain ⟨sorted, map⟩ := law.freeSlot (n := n)
      refine ⟨sorted.filter _, fun k m => (map k m).trans ?_⟩
      have gone : (s.freeSlot n).slotOf n = none := by
        rw [State.slotOf, State.freeSlot_receiver, Function.update_self, found]
        rfl
      show _ ↔ ∃ r ∈ (s.freeSlot n).registry.receivers.filter _, _
      simp only [List.mem_filter, decide_eq_true_eq]
      refine exists_congr fun r => ⟨fun ⟨mem, same, held⟩ => ⟨⟨mem, fun here => ?_⟩, same, held⟩,
        fun ⟨⟨mem, _⟩, same, held⟩ => ⟨mem, same, held⟩⟩
      have entry := (map k n).mpr ⟨r, mem, here, held⟩
      rw [((s.freeSlot n).rackMapAgrees_iff.mp ⟨sorted, map⟩).2, gone] at entry
      cases entry
    · exact law

theorem setThreshold_rackMapAgrees (v : Nat) : (setThreshold v s).state.rackMapAgrees := by
  refine law.of_map (f := Receiver.replace (clamp 20 100 v)) (fun r => ?_) rfl rfl
  rw [Receiver.replace_eq]
  split <;> exact ⟨rfl, rfl⟩

theorem stocktakeStart_rackMapAgrees (x : Unit) : (stocktakeStart x s).state.rackMapAgrees := by
  unfold stocktakeStart
  split
  · exact law
  · exact law.of_map (f := fun r => { r with mark := r.state.racked }) (fun _ => ⟨rfl, rfl⟩) rfl rfl

/-- The marked receivers leave their slots together, in the map and in the records (R109). -/
theorem stocktakeEnd_rackMapAgrees (x : Unit) : (stocktakeEnd x s).state.rackMapAgrees := by
  unfold stocktakeEnd
  split
  · obtain ⟨sorted, map⟩ := law
    refine ⟨?_, fun k m => ?_⟩
    · show (s.registry.receivers.map Receiver.endStocktake).Pairwise _
      rw [List.pairwise_map]
      simpa only [Receiver.endStocktake_number] using sorted
    · show (freeMarked s.registry.receivers s.registry.slots).get k = some m ↔
        ∃ r ∈ s.registry.receivers.map Receiver.endStocktake, _
      simp only [List.mem_map, exists_exists_and_eq_and, Receiver.endStocktake_number, Receiver.endStocktake_slot]
      rw [freeMarked_get]
      split
      · next gone =>
        obtain ⟨q, holds, marked, held⟩ := gone
        refine ⟨(nomatch ·), fun ⟨r, mem, _, unmarked, here⟩ => ?_⟩
        have number : r.number = q.number := Option.some.inj
          (((map k r.number).mpr ⟨r, mem, rfl, here⟩).symm.trans ((map k q.number).mpr ⟨q, holds, rfl, held⟩))
        have first := (mem_iff_find? (key := Receiver.number) sorted r).mp mem
        rw [number, (mem_iff_find? (key := Receiver.number) sorted q).mp holds] at first
        cases first
        rw [marked] at unmarked
        cases unmarked
      · next stands =>
        refine (map k m).trans (exists_congr fun r => and_congr_right fun mem => and_congr_right fun _ => ?_)
        exact ⟨fun held => ⟨Bool.eq_false_iff.mpr fun marked => stands ⟨r, mem, marked, held⟩, held⟩, And.right⟩
  · exact law

theorem rackBattery_rackMapAgrees (n b : Nat) : (rackBattery n b s).state.rackMapAgrees := by
  unfold rackBattery
  split
  · exact law
  · refine law.modifyReceiver fun r => ?_
    rw [Receiver.report_eq]
    exact ⟨rfl, rfl⟩

theorem rackRemoved_rackMapAgrees (k : Fin 512) : (rackRemoved k s).state.rackMapAgrees := by
  unfold rackRemoved
  split
  · exact law
  · next m held => exact law.pull.resolve_right (not_not.mpr held)

end bodies

/-! ### Hire events keep the law (R105) -/

section hires
variable {s t : State}

theorem State.rackMapAgrees_of_registry (same : t.registry = s.registry) (law : s.rackMapAgrees) : t.rackMapAgrees := by
  unfold State.rackMapAgrees
  rwa [same]

theorem State.movePreset_registry (s : State) (h : Hire) (preset : Option Prog) :
    (s.movePreset h preset).registry = s.registry :=
  (State.changeDemand_registry ..).trans (State.changeDemand_registry ..)

theorem changePreset_registry (k : Nat) (preset : Option Prog) (s : State) :
    (changePreset k preset s).state.registry = s.registry := by
  unfold changePreset
  split
  · rfl
  · split
    · rfl
    · split
      · rfl
      · split
        · rfl
        · exact s.movePreset_registry _ preset

theorem State.takeRest_registry (s : State) (oldest : Settled) (rest : List Settled) :
    (s.takeRest oldest rest).registry = s.registry := by
  unfold State.takeRest
  split
  · rfl
  · exact State.appendSettled_registry ..

theorem takeSettlement_registry (x : Unit) (s : State) : (takeSettlement x s).state.registry = s.registry := by
  unfold takeSettlement
  split
  · rfl
  · exact s.takeRest_registry ..

theorem State.checkOverdue_registry (s : State) (h : Hire) : (s.checkOverdue h).registry = s.registry := by
  unfold State.checkOverdue
  dsimp only
  split
  · exact (State.notify_reports ..).registry
  · rfl

variable (law : s.rackMapAgrees)
include law

theorem State.rackMapAgrees.returnReceiver {r : Receiver} : (s.returnReceiver r).1.rackMapAgrees :=
  State.rackMapAgrees_of_registry (s.returnReceiver_registry r) law.unrackReceiver

theorem returnReceiver_rackMapAgrees (n : Nat) : (returnReceiver n s).state.rackMapAgrees := by
  unfold returnReceiver
  split
  · exact law
  · split
    · exact law.returnReceiver
    · exact law.unrackReceiver
    all_goals exact law

theorem State.rackMapAgrees.writeOffLine {h : Hire} {i n : Nat} : (s.writeOffLine h i n).rackMapAgrees := by
  refine State.rackMapAgrees_of_registry (State.changeDemand_registry ..) (State.rackMapAgrees.loseReceiver ?_)
  exact law

theorem writeOff_rackMapAgrees (k n : Nat) : (writeOff k n s).state.rackMapAgrees := by
  unfold writeOff
  split
  · exact law
  · split
    · exact law
    · split
      · exact law
      · exact State.rackMapAgrees_of_registry (State.closeIfDone_registry ..) law.writeOffLine

theorem State.rackMapAgrees.addLine {h : Hire} {n : Nat} : (s.addLine h n).rackMapAgrees := by
  refine State.rackMapAgrees_of_registry (State.changeDemand_registry ..) (State.rackMapAgrees.issueReceiver ?_)
  exact law

theorem addReceiver_rackMapAgrees (k n : Nat) : (addReceiver k n s).state.rackMapAgrees := by
  unfold addReceiver
  split
  · exact law
  · split
    · exact law
    · split
      · exact law
      · split
        · exact law
        · split
          · exact law
          · exact law.addLine

theorem State.rackMapAgrees.issueReceivers (l : List Nat) (h : Nat) :
    (l.foldl (fun u n => u.issueReceiver n h) s).rackMapAgrees := by
  induction l generalizing s with
  | nil => exact law
  | cons n rest ih => exact ih law.issueReceiver

theorem State.rackMapAgrees.openHire {number : Nat} {a : OpenArgs} : (s.openHire number a).rackMapAgrees := by
  refine State.rackMapAgrees_of_registry (State.changeDemand_registry ..) (State.rackMapAgrees.issueReceivers ?_ _ _)
  exact law

theorem openHire_rackMapAgrees (a : OpenArgs) : (openHire a s).state.rackMapAgrees := by
  unfold openHire
  split
  · exact law
  · split
    · exact law
    · split
      · exact law
      · split
        · exact law
        · split
          · exact law
          · exact law.openHire

/-- RACK SEATED: the return, the displacement and the seating keep the law in turn (R101). -/
theorem rackSeated_rackMapAgrees (n : Nat) (k : Fin 512) (b : Nat) : (rackSeated n k b s).state.rackMapAgrees := by
  cases found : s.receiver n with
  | none =>
    unfold rackSeated
    rw [found]
    exact law
  | some r =>
    have returned : (s.implicitReturn r).1.rackMapAgrees ∧ ∃ q, (s.implicitReturn r).1.receiver n = some q := by
      unfold State.implicitReturn
      split
      · refine ⟨law.returnReceiver, r.unracked, ?_⟩
        rw [State.receiver_congr (s.returnReceiver_registry r), s.receiver_number found, State.unrackReceiver_receiver,
          Function.update_self, found]
        rfl
      all_goals exact ⟨law, r, found⟩
    obtain ⟨law, q, present⟩ := returned
    obtain ⟨displaced, vacant⟩ := law.displace (n := n) (k := k)
    rw [rackSeated_of_some found rfl rfl]
    exact displaced.seatAndPlace ((State.displace_receiver ..).trans present) vacant

end hires

end Sys2Proof.Machine
end

section
/-! SUPPORT. Scope, the hire table (R111 to R114): what it finds after a record is changed, removed or put in its place, the OUT
lines of a hire as each event on a line leaves them, and the free hire number. -/

namespace Sys2Proof.Machine

/-! ### Sums and counts over a list -/

/-- The figures of the records after the record numbered `n` is changed. -/
theorem sum_map_modify {α : Type} {key : α → Nat} {f : α → α} {n : Nat} {l : List α} {a : α}
    (sorted : l.Pairwise fun a b => key a < key b) (found : l.find? (fun b => key b == n) = some a) (w : α → Nat) :
    ((l.map fun b => if key b = n then f b else b).map w).sum + w a = (l.map w).sum + w (f a) := by
  induction l with
  | nil => cases found
  | cons b rest ih =>
    obtain ⟨first, tail⟩ := List.pairwise_cons.mp sorted
    simp only [List.map_cons, List.sum_cons]
    by_cases here : key b = n
    · have stands : (rest.map fun b => if key b = n then f b else b) = rest := by
        refine (List.map_congr_left fun c later => ?_).trans (List.map_id _)
        exact if_neg (here ▸ (first c later).ne')
      rw [List.find?_cons_of_pos (by simpa using here)] at found
      cases found
      rw [if_pos here, stands]
      omega
    · rw [List.find?_cons_of_neg (by simpa using here)] at found
      have rest := ih tail found
      rw [if_neg here]
      omega

/-- The figures of the records after a record of no figure is removed. -/
theorem sum_map_remove {α : Type} {key : α → Nat} {n : Nat} {l : List α} {w : α → Nat} (none : ∀ a ∈ l, key a = n → w a = 0) :
    ((l.filter fun a => key a ≠ n).map w).sum = (l.map w).sum := by
  induction l with
  | nil => rfl
  | cons a rest ih =>
    have later := ih fun b mem => none b (List.mem_cons_of_mem _ mem)
    by_cases here : key a = n
    · have zero := none a (List.mem_cons_self ..) here
      rw [List.filter_cons_of_neg (by simpa using here), later, List.map_cons, List.sum_cons, zero, Nat.zero_add]
    · rw [List.filter_cons_of_pos (by simpa using here), List.map_cons, List.sum_cons, later, List.map_cons, List.sum_cons]

/-- A count after the item at index `i` is changed. -/
theorem countP_modify {α : Type} {p : α → Bool} {f : α → α} {l : List α} {i : Nat} {a : α} (found : l[i]? = some a) :
    (l.modify i f).countP p + (if p a then 1 else 0) = l.countP p + if p (f a) then 1 else 0 := by
  induction l generalizing i with
  | nil => cases found
  | cons b rest ih =>
    cases i with
    | zero =>
      cases found
      rw [List.modify_zero_cons, List.countP_cons, List.countP_cons]
      omega
    | succ i =>
      have rest := ih (i := i) found
      rw [List.modify_succ_cons, List.countP_cons, List.countP_cons]
      omega

/-! ### The hire records (R111, R113) -/

section records
variable (s : State)

theorem State.hire_number {n : Nat} {h : Hire} (found : s.hire n = some h) : h.number = n :=
  find?_key (key := Hire.number) found

/-- The hire records stand in strictly ascending order (R113). -/
def State.hiresSorted : Prop := s.hires.records.Pairwise fun a b => a.number < b.number

theorem State.modifyHire_hire {f : Hire → Hire} (hf : ∀ h, (f h).number = h.number) (n : Nat) :
    (s.modifyHire n f).hire = Function.update s.hire n ((s.hire n).map f) := by
  funext m
  rw [Function.update_apply]
  exact find?_modify (key := Hire.number) hf s.hires.records n m

theorem State.removeHire_hire (n : Nat) : (s.removeHire n).hire = Function.update s.hire n none := by
  funext m
  rw [Function.update_apply]
  exact find?_remove (key := Hire.number) s.hires.records n m

variable {s}

theorem State.mem_hires_iff (sorted : s.hiresSorted) (h : Hire) : h ∈ s.hires.records ↔ s.hire h.number = some h :=
  mem_iff_find? (key := Hire.number) sorted h

theorem State.modifyHire_congr {n : Nat} {f g : Hire → Hire} (sorted : s.hiresSorted)
    (same : ∀ h, s.hire n = some h → f h = g h) : s.modifyHire n f = s.modifyHire n g := by
  refine congrArg s.setHires (List.map_congr_left fun h mem => ?_)
  split
  · next here => exact same h (here ▸ (State.mem_hires_iff sorted h).mp mem)
  · rfl

theorem State.modifyHire_sorted {n : Nat} {f : Hire → Hire} (sorted : s.hiresSorted)
    (hf : ∀ h, (f h).number = h.number) : (s.modifyHire n f).hiresSorted := by
  show List.Pairwise _ (s.hires.records.map _)
  have kept (h : Hire) : (if h.number = n then f h else h).number = h.number := by split <;> simp [hf]
  rw [List.pairwise_map]
  simpa only [kept] using (show s.hires.records.Pairwise _ from sorted)

end records

/-! ### The OUT lines of a hire (R112) -/

section lines
variable {h : Hire} {n i : Nat}

theorem Hire.anyOut_eq_false : h.anyOut = false ↔ h.outCount = 0 := by
  simp [Hire.anyOut, Hire.outCount_eq, List.countP_eq_zero]

theorem Hire.outFor_eq_zero (done : h.anyOut = false) (n : Nat) : h.outFor n = 0 := by
  simp only [Hire.anyOut, List.any_eq_false, beq_iff_eq] at done
  simpa [Hire.outFor, List.countP_eq_zero] using fun l mem _ => done l mem

/-- An OUT line that a hire has for a receiver, at its index. -/
theorem Hire.outLine_some (found : h.outLine n = some i) : ∃ l, h.lines[i]? = some l ∧ l.receiver = n ∧ l.state = .out := by
  obtain ⟨inside, here, -⟩ := List.findIdx?_eq_some_iff_getElem.mp found
  exact ⟨h.lines[i], List.getElem?_eq_getElem inside, by simpa using here⟩

theorem Hire.outLine_isSome (found : h.outLine n = some i) : h.anyOut = true := by
  obtain ⟨l, at_i, -, out⟩ := Hire.outLine_some found
  exact List.any_eq_true.mpr ⟨l, List.mem_of_getElem? at_i, by simp [out]⟩

/-- A line that leaves OUT counts no more. -/
theorem Hire.modifyLine_outCount {f : Line → Line} (found : h.outLine n = some i) (hf : ∀ l, (f l).state ≠ .out) :
    (h.modifyLine i f).outCount + 1 = h.outCount := by
  obtain ⟨l, at_i, -, out⟩ := Hire.outLine_some found
  have counted := countP_modify (p := fun l : Line => l.state = .out) (f := f) at_i
  rw [Hire.outCount_eq, Hire.outCount_eq]
  simpa [Hire.modifyLine, out, hf] using counted

/-- A line that leaves OUT is no OUT line of its receiver any more. -/
theorem Hire.modifyLine_outFor {f : Line → Line} (found : h.outLine n = some i) (hf : ∀ l, (f l).state ≠ .out) (m : Nat) :
    (h.modifyLine i f).outFor m + (if m = n then 1 else 0) = h.outFor m := by
  obtain ⟨l, at_i, here, out⟩ := Hire.outLine_some found
  have counted := countP_modify (p := fun l : Line => l.receiver = m ∧ l.state = .out) (f := f) at_i
  rw [Hire.outFor, Hire.outFor]
  simpa [Hire.modifyLine, out, hf, here, eq_comm (a := n)] using counted

/-- A hire with a new line for receiver `n` (R117). -/
def Hire.withLine (b : Option (BitVec 32)) (n : Nat) (h : Hire) : Hire := { h with lines := h.lines ++ [newLine b n] }

theorem Hire.withLine_outCount (b : Option (BitVec 32)) : (h.withLine b n).outCount = h.outCount + 1 := by
  simp [Hire.outCount_eq, Hire.withLine, newLine]

theorem Hire.withLine_outFor (b : Option (BitVec 32)) (m : Nat) :
    (h.withLine b n).outFor m = h.outFor m + if m = n then 1 else 0 := by
  simp [Hire.outFor, Hire.withLine, newLine, List.countP_singleton, eq_comm]

theorem Line.move_receiver (l : Line) (a b : Option (BitVec 32)) : (l.move a b).receiver = l.receiver := by
  unfold Line.move
  split <;> rfl

theorem Line.move_state (l : Line) (a b : Option (BitVec 32)) : (l.move a b).state = l.state := by
  unfold Line.move
  split <;> rfl

/-- A hire moved to another preset, its OUT lines with it (R123). -/
def Hire.moveTo (preset : Option Prog) (old new : Option (BitVec 32)) (h : Hire) : Hire :=
  { h with preset := preset, lines := h.lines.map fun l => l.move old new }

theorem Hire.moveTo_outCount (preset : Option Prog) (old new : Option (BitVec 32)) :
    (h.moveTo preset old new).outCount = h.outCount := by
  simp [Hire.outCount_eq, Hire.moveTo, List.countP_map, Function.comp_def, Line.move_state]

theorem Hire.moveTo_outFor (preset : Option Prog) (old new : Option (BitVec 32)) (m : Nat) :
    (h.moveTo preset old new).outFor m = h.outFor m := by
  simp [Hire.outFor, Hire.moveTo, List.countP_map, Function.comp_def, Line.move_state, Line.move_receiver]

theorem newLines_outCount (b : Option (BitVec 32)) (l : List Nat) :
    (l.map (newLine b)).countP (fun l => l.state = .out) = l.length := by
  induction l with
  | nil => rfl
  | cons n rest ih => rw [List.map_cons, List.countP_cons, ih]; rfl

theorem newLines_outFor (b : Option (BitVec 32)) (l : List Nat) (m : Nat) :
    (l.map (newLine b)).countP (fun x => x.receiver = m ∧ x.state = .out) = l.count m := by
  rw [List.countP_map, List.count]
  refine List.countP_congr fun n _ => ?_
  simp [newLine, Function.comp]

end lines

/-! ### The free hire number (R114) -/

/-- The tries of `freeHireNumber`: one of them is free and found, or every one of `fuel` is held. -/
theorem freeHireNumber_cases (l : List Hire) (fuel n : Nat) :
    (∀ h ∈ l, h.number ≠ freeHireNumber l fuel n) ∨
      ∀ k < fuel, ∃ h ∈ l, h.number = nextHireNumber^[k] n := by
  induction fuel generalizing n with
  | zero => exact .inr fun k below => absurd below (Nat.not_lt_zero k)
  | succ fuel ih =>
    unfold freeHireNumber
    split
    · next taken =>
      simp only [List.any_eq_true, beq_iff_eq] at taken
      rcases ih (nextHireNumber n) with free | full
      · exact .inl free
      · refine .inr fun k below => ?_
        cases k with
        | zero => exact taken
        | succ k => exact full k (by omega)
    · next free =>
      simp only [List.any_eq_true, beq_iff_eq, not_exists, not_and] at free
      exact .inl free

/-- The numbers from `n` on run through 1 to 9999. -/
theorem nextHireNumber_iterate {n : Nat} (lo : 1 ≤ n) (hi : n ≤ 9999) (k : Nat) :
    nextHireNumber^[k] n = (n - 1 + k) % 9999 + 1 := by
  induction k with
  | zero => rw [Function.iterate_zero_apply]; omega
  | succ k ih =>
    rw [Function.iterate_succ_apply', ih]
    unfold nextHireNumber
    split <;> omega

/-- While the table has room the number found is held by no record (R114). -/
theorem freeHireNumber_free {l : List Hire} {n : Nat} (room : l.length ≤ 512) (lo : 1 ≤ n) (hi : n ≤ 9999) :
    ∀ h ∈ l, h.number ≠ freeHireNumber l 513 n := by
  rcases freeHireNumber_cases l 513 n with free | full
  · exact free
  · have distinct : ((List.range 513).map fun k => nextHireNumber^[k] n).Nodup := by
      refine List.nodup_range.map_on fun a ha b hb same => ?_
      rw [List.mem_range] at ha hb
      simp only [nextHireNumber_iterate lo hi] at same
      omega
    have held : ((List.range 513).map fun k => nextHireNumber^[k] n) ⊆ l.map (·.number) := by
      intro m mem
      obtain ⟨k, below, rfl⟩ := List.mem_map.mp mem
      obtain ⟨h, holds, same⟩ := full k (List.mem_range.mp below)
      exact List.mem_map.mpr ⟨h, holds, same⟩
    have long := (distinct.subperm held).length_le
    simp only [List.length_map, List.length_range] at long
    omega

end Sys2Proof.Machine
end

section
/-! SUPPORT. Scope, the law of the demand counts (R113, R128): it passes by a rule for each way in which the hire records change
(one record changed, every record alike, one removed, one put in its place) and each event on a hire is one of them. -/

namespace Sys2Proof.Machine

/-! ### A hire's part of a demand count -/

/-- What a hire adds to the demand count of program `p` (R128). -/
def Hire.demandFor (p : Prog) (h : Hire) : Nat := if h.state = .opened ∧ h.preset = some p then h.outCount else 0

theorem Hire.demandFor_of_done {h : Hire} (done : h.anyOut = false) (p : Prog) : h.demandFor p = 0 := by
  rw [Hire.demandFor, Hire.anyOut_eq_false.mp done, ite_self]

theorem Hire.demandFor_of_settling {h : Hire} (settling : h.state = .settling) (p : Prog) : h.demandFor p = 0 :=
  if_neg fun ⟨opened, _⟩ => by rw [settling] at opened; cases opened

theorem Hire.demandFor_of_opened {h : Hire} (opened : h.state = .opened) (p : Prog) :
    h.demandFor p = if h.preset = some p then h.outCount else 0 := by
  simp only [Hire.demandFor, opened, true_and]

theorem Hire.opened_of_not_settling {h : Hire} (other : h.state ≠ .settling) : h.state = .opened := by
  cases state : h.state with
  | opened => rfl
  | settling => exact absurd state other

theorem State.demandOf_eq (s : State) (p : Prog) : s.demandOf p = (s.hires.records.map (Hire.demandFor p)).sum := by
  unfold State.demandOf
  induction s.hires.records with
  | nil => rfl
  | cons h rest ih =>
    rw [List.map_cons, List.sum_cons, ← ih, List.filter_cons, Hire.demandFor]
    simp only [Bool.and_eq_true, beq_iff_eq]
    split
    · rw [List.map_cons, List.sum_cons]
    · rw [Nat.zero_add]

theorem State.changeDemand_demand (s : State) (preset : Option Prog) (f : Nat → Nat) (p : Prog) :
    ((s.changeDemand preset f).program p).demand =
      if preset = some p then f (s.program p).demand else (s.program p).demand := by
  cases preset with
  | none => rfl
  | some q =>
    show ((s.programs.modify q _).get p).demand = _
    rw [Table.get_modify]
    by_cases same : q = p
    · rw [if_pos same, if_pos (congrArg some same), same]
      rfl
    · rw [if_neg same, if_neg fun eq => same (Option.some.inj eq)]
      rfl

theorem State.changeDemand_startup (s : State) (preset : Option Prog) (f : Nat → Nat) :
    (s.changeDemand preset f).startup = s.startup := by
  cases preset <;> rfl

/-! ### What the law reads -/

/-- What the law of the demand counts reads: the start-up state, the Hire Table and the demand counts. -/
def State.books (s : State) : Startup × HireTable × (Prog → Nat) := (s.ledger.startup, s.ledger.hires, s.ledger.demand)

section books
variable {s t : State}

theorem State.books_of_ledger (h : t.ledger = s.ledger) : t.books = s.books := by
  unfold State.books
  rw [h]

theorem State.books_startup (h : t.books = s.books) : t.startup = s.startup := congrArg (·.1) h
theorem State.books_hires (h : t.books = s.books) : t.hires = s.hires := congrArg (·.2.1) h
theorem State.books_demand (h : t.books = s.books) (p : Prog) : (t.program p).demand = (s.program p).demand :=
  congrFun (congrArg (·.2.2) h) p

theorem State.foldl_books {α : Type} {f : State → α → State} (hf : ∀ u a, (f u a).books = u.books) (l : List α) (s : State) :
    (l.foldl f s).books = s.books := by
  induction l generalizing s with
  | nil => rfl
  | cons a rest ih => exact (ih _).trans (hf s a)

variable (s)

@[simp] theorem State.setReceivers_books (l : List Receiver) : (s.setReceivers l).books = s.books := rfl
@[simp] theorem State.setSlot_books (k : Fin 512) (v : Option Nat) : (s.setSlot k v).books = s.books := rfl
@[simp] theorem State.modifyReceiver_books (n : Nat) (f : Receiver → Receiver) : (s.modifyReceiver n f).books = s.books := rfl
@[simp] theorem State.setReceiverState_books (n : Nat) (x : ReceiverState) : (s.setReceiverState n x).books = s.books := rfl
@[simp] theorem State.notify_books (k : NoticeKind) (a b c d : Nat) : (s.notify k a b c d).books = s.books :=
  State.books_of_ledger (s.notify_ledger k a b c d)

@[simp] theorem State.freeSlot_books (n : Nat) : (s.freeSlot n).books = s.books := by
  unfold State.freeSlot
  split <;> rfl

@[simp] theorem State.clearMark_books (n : Nat) : (s.clearMark n).books = s.books := by
  unfold State.clearMark
  split
  · split <;> rfl
  · rfl

@[simp] theorem State.seat_books (n : Nat) (k : Fin 512) : (s.seat n k).books = s.books := s.freeSlot_books n
@[simp] theorem State.issueReceiver_books (n h : Nat) : (s.issueReceiver n h).books = s.books := s.clearMark_books n
@[simp] theorem State.unrackReceiver_books (n : Nat) : (s.unrackReceiver n).books = s.books := s.freeSlot_books n
@[simp] theorem State.loseReceiver_books (n h : Nat) : (s.loseReceiver n h).books = s.books := s.freeSlot_books n

@[simp] theorem State.pullFromRack_books (m : Nat) (k : Fin 512) (c : Nat) : (s.pullFromRack m k c).books = s.books := by
  simp [State.pullFromRack]

@[simp] theorem State.displace_books (n : Nat) (k : Fin 512) : (s.displace n k).1.books = s.books := by
  unfold State.displace
  repeat' split
  all_goals simp

@[simp] theorem State.seatAndPlace_books (n : Nat) (k : Fin 512) (b : Nat) (x : ReceiverState) :
    (s.seatAndPlace n k b x).books = s.books := by
  simp [State.seatAndPlace]

@[simp] theorem State.pull_books (m : Nat) (k : Fin 512) : (s.pull m k).books = s.books := by
  unfold State.pull
  repeat' split
  all_goals simp

end books

/-- A change of a demand count reads the books alone. -/
theorem State.changeDemand_books {s t : State} (preset : Option Prog) (f : Nat → Nat) (h : t.books = s.books) :
    (t.changeDemand preset f).books = (s.changeDemand preset f).books := by
  have demand : (fun p => ((t.changeDemand preset f).program p).demand) =
      fun p => ((s.changeDemand preset f).program p).demand := by
    funext p
    rw [State.changeDemand_demand, State.changeDemand_demand, State.books_demand h]
  refine Prod.ext ?_ (Prod.ext ?_ demand)
  · exact (State.changeDemand_startup ..).trans ((State.books_startup h).trans (State.changeDemand_startup ..).symm)
  · exact (State.changeDemand_hires ..).trans ((State.books_hires h).trans (State.changeDemand_hires ..).symm)

/-! ### The registry's commands leave the books -/

section registry
variable (s : State)

theorem enrolReceiver_books (n : Nat) : (enrolReceiver n s).state.books = s.books := by
  unfold enrolReceiver
  dsimp only
  repeat' split
  all_goals rfl

theorem withdrawReceiver_books (n : Nat) : (withdrawReceiver n s).state.books = s.books := by
  unfold withdrawReceiver
  repeat' split
  all_goals simp [withdrawAnswer_state, State.refuse]

theorem reinstateReceiver_books (n : Nat) : (reinstateReceiver n s).state.books = s.books := by
  unfold reinstateReceiver
  repeat' split
  all_goals rfl

theorem deleteReceiver_books (n : Nat) : (deleteReceiver n s).state.books = s.books := by
  unfold deleteReceiver
  repeat' split
  all_goals simp [State.removeReceiver, State.refuse]

theorem setThreshold_books (v : Nat) : (setThreshold v s).state.books = s.books := rfl

theorem stocktakeStart_books (x : Unit) : (stocktakeStart x s).state.books = s.books := by
  unfold stocktakeStart
  split <;> rfl

theorem stocktakeEnd_books (x : Unit) : (stocktakeEnd x s).state.books = s.books := by
  unfold stocktakeEnd
  split <;> rfl

theorem rackBattery_books (n b : Nat) : (rackBattery n b s).state.books = s.books := by
  unfold rackBattery
  split <;> rfl

theorem rackRemoved_books (k : Fin 512) : (rackRemoved k s).state.books = s.books := by
  unfold rackRemoved
  split
  · rfl
  · exact s.pull_books _ _

end registry

/-! ### How the law passes -/

section rules
variable {s t : State} (law : s.demandCounted)
include law

theorem State.demandCounted.sorted : s.hiresSorted := law.1

/-- A hire with a line OUT is OPEN (R126). -/
theorem State.demandCounted.opened {k : Nat} {h : Hire} (found : s.hire k = some h) (out : h.anyOut = true) :
    h.state = .opened := by
  obtain ⟨-, -, -, settling, -⟩ := law
  cases state : h.state with
  | opened => rfl
  | settling =>
    rw [settling h (List.mem_of_find?_eq_some found) state] at out
    cases out

/-- The hires stand; the counts are right once start-up is over (R129). -/
theorem State.demandCounted.of_hires (hires : t.hires = s.hires)
    (counted : t.startup = .done → ∀ p, (t.program p).demand = s.demandOf p) : t.demandCounted := by
  obtain ⟨sorted, length, counter, settling, -⟩ := law
  have same (p : Prog) : t.demandOf p = s.demandOf p := by rw [State.demandOf_eq, State.demandOf_eq, hires]
  unfold State.demandCounted
  simp only [hires, same]
  exact ⟨sorted, length, counter, settling, counted⟩

theorem State.demandCounted.of_books (h : t.books = s.books) : t.demandCounted := by
  obtain ⟨-, -, -, -, counted⟩ := id law
  refine law.of_hires (State.books_hires h) fun running p => ?_
  rw [State.books_demand h]
  exact counted (State.books_startup h ▸ running) p

/-- The record of hire `k` is changed, and the counts with its part. -/
theorem State.demandCounted.of_modify {k : Nat} {x : Hire} {f : Hire → Hire} (found : s.hire k = some x)
    (hf : ∀ h, (f h).number = h.number) (hires : t.hires = (s.modifyHire k f).hires) (startup : t.startup = s.startup)
    (done : (f x).state = .settling → (f x).anyOut = false)
    (demand : ∀ p, x.demandFor p ≤ (s.program p).demand →
      (t.program p).demand + x.demandFor p = (s.program p).demand + (f x).demandFor p) : t.demandCounted := by
  have moved := s.modifyHire_sorted (n := k) law.sorted hf
  obtain ⟨sorted, length, counter, settling, counted⟩ := law
  unfold State.demandCounted
  rw [hires, startup]
  refine ⟨moved, ?_, counter, ?_, fun running p => ?_⟩
  · show (s.hires.records.map _).length ≤ 512
    rwa [List.length_map]
  · intro h mem
    obtain ⟨a, holds, rfl⟩ := List.mem_map.mp mem
    split
    · next here =>
      have same : some a = some x := ((State.mem_hires_iff sorted a).mp holds).symm.trans (here ▸ found)
      cases same
      exact done
    · exact settling a holds
  · have sum := sum_map_modify (key := Hire.number) (f := f) sorted found (Hire.demandFor p)
    have before := counted running p
    have part : x.demandFor p ≤ (s.hires.records.map (Hire.demandFor p)).sum :=
      List.single_le_sum (fun _ _ => Nat.zero_le _) _ (List.mem_map_of_mem (List.mem_of_find?_eq_some found))
    rw [State.demandOf_eq] at before ⊢
    have after := demand p (before ▸ part)
    rw [hires]
    show _ = ((s.hires.records.map _).map _).sum
    omega

/-- Every record is changed alike, keeping what the law reads. -/
theorem State.demandCounted.of_map {f : Hire → Hire}
    (hf : ∀ h, (f h).number = h.number ∧ (f h).state = h.state ∧ (f h).preset = h.preset ∧ (f h).lines = h.lines)
    (hires : t.hires = ⟨s.hires.records.map f, s.hires.counter⟩) (startup : t.startup = s.startup)
    (demand : ∀ p, (t.program p).demand = (s.program p).demand) : t.demandCounted := by
  obtain ⟨sorted, length, counter, settling, counted⟩ := law
  have part (p : Prog) (h : Hire) : (f h).demandFor p = h.demandFor p := by
    simp only [Hire.demandFor, Hire.outCount, hf]
  unfold State.demandCounted
  simp only [State.demandOf_eq, hires, startup, demand, List.map_map, List.pairwise_map, List.length_map, List.forall_mem_map,
    Function.comp_def, part, hf, Hire.anyOut] at counted ⊢
  exact ⟨sorted, length, counter, settling, counted⟩

/-- The record of hire `k` is removed, no line of it OUT. -/
theorem State.demandCounted.of_remove {k : Nat} (done : ∀ h, s.hire k = some h → h.anyOut = false)
    (hires : t.hires = ⟨s.hires.records.filter fun h => h.number ≠ k, s.hires.counter⟩) (startup : t.startup = s.startup)
    (demand : ∀ p, (t.program p).demand = (s.program p).demand) : t.demandCounted := by
  obtain ⟨sorted, length, counter, settling, counted⟩ := law
  have none (p : Prog) : ∀ h ∈ s.hires.records, h.number = k → h.demandFor p = 0 := fun h mem here =>
    Hire.demandFor_of_done (done h (here ▸ (State.mem_hires_iff sorted h).mp mem)) p
  unfold State.demandCounted
  simp only [State.demandOf_eq, hires, startup, demand] at counted ⊢
  refine ⟨sorted.filter _, (List.length_filter_le ..).trans length, counter,
    fun h mem => settling h (List.mem_of_mem_filter mem), fun running p => (counted running p).trans ?_⟩
  exact (sum_map_remove (key := Hire.number) (none p)).symm

/-- An OPEN record is put in its place under a number of its own, with room for it (R114). -/
theorem State.demandCounted.of_insert {h : Hire} {c : Nat} (room : s.hires.records.length < 512) (opened : h.state = .opened)
    (fresh : ∀ a ∈ s.hires.records, a.number ≠ h.number) (lo : 1 ≤ c) (hi : c ≤ 9999)
    (hires : t.hires = ⟨insertAsc (·.number) h s.hires.records, c⟩) (startup : t.startup = s.startup)
    (demand : ∀ p, (t.program p).demand = (s.program p).demand + h.demandFor p) : t.demandCounted := by
  obtain ⟨sorted, length, -, settling, counted⟩ := law
  have perm := insertAsc_perm (key := Hire.number) h s.hires.records
  unfold State.demandCounted
  simp only [State.demandOf_eq, hires, startup, demand] at counted ⊢
  refine ⟨insertAsc_pairwise (key := Hire.number) sorted fresh, ?_, ⟨lo, hi⟩, fun a mem => ?_, fun running p => ?_⟩
  · rw [perm.length_eq]
    exact room
  · rcases List.mem_cons.mp (perm.mem_iff.mp mem) with rfl | mem
    · rw [opened]
      nofun
    · exact settling a mem
  · rw [counted running p, (perm.map _).sum_eq, List.map_cons, List.sum_cons, Nat.add_comm]

end rules

/-! ### The close of a hire, and TAKE SETTLEMENT -/

section close
variable {s : State}

@[simp] theorem State.appendSettled_ledger (s : State) (r : Settled) : (s.appendSettled r).ledger = s.ledger := by
  unfold State.appendSettled
  dsimp only
  split <;> simp

/-- A record closed in the SETTLING state. -/
def Hire.settleAt (time : HallTime) (valid : Bool) (place : Nat) (a : Account) (h : Hire) : Hire :=
  (h.close time valid).wait place a

/-- A hire that closes leaves the table, or waits in it as SETTLING (R144, R145). -/
theorem State.closeHire_ledger (sorted : s.hiresSorted) {k : Nat} {h : Hire} (found : s.hire k = some h) :
    (s.closeHire h).1.ledger = (s.removeHire k).ledger ∨
      ∃ a, (s.closeHire h).1.ledger =
        (s.modifyHire k (Hire.settleAt s.session.clock s.session.valid (s.settlingCount + 1) a)).ledger := by
  have number := s.hire_number found
  unfold State.closeHire
  dsimp only
  split
  · exact .inl (number ▸ State.appendSettled_ledger ..)
  · rw [number, State.raiseFault_ledger]
    refine .inr ⟨accountOf (s.tariff h.plan) (h.close s.session.clock s.session.valid),
      congrArg State.ledger (State.modifyHire_congr sorted fun x here => ?_)⟩
    cases found.symm.trans here
    rfl

variable (law : s.demandCounted)
include law

theorem State.demandCounted.closeHire {k : Nat} {h : Hire} (found : s.hire k = some h) (done : h.anyOut = false) :
    (s.closeHire h).1.demandCounted := by
  rcases State.closeHire_ledger law.sorted found with removed | ⟨a, settled⟩
  · refine State.demandCounted_congr removed (law.of_remove (k := k) (fun x here => ?_) rfl rfl fun _ => rfl)
    cases found.symm.trans here
    exact done
  · refine State.demandCounted_congr settled (law.of_modify
      (f := Hire.settleAt s.session.clock s.session.valid (s.settlingCount + 1) a) found (fun _ => rfl) rfl rfl (fun _ => done)
      fun p _ => ?_)
    rw [Hire.demandFor_of_done done, Hire.demandFor_of_settling rfl]
    rfl

theorem State.demandCounted.closeIfDone {k : Nat} : (s.closeIfDone k).1.demandCounted := by
  unfold State.closeIfDone
  split
  · exact law
  · next h found =>
    split
    · exact law
    · next done => exact law.closeHire found (Bool.eq_false_iff.mpr done)

end close

theorem State.setHires_ledger (s : State) (l : List Hire) :
    (s.setHires l).ledger = { s.ledger with hires := { s.ledger.hires with records := l } } := rfl

/-- A SETTLING hire drawn into the queue leaves the table, and the hires behind it move up (R146). -/
theorem State.takeRest_ledger (s : State) (oldest : Settled) (rest : List Settled) :
    (s.takeRest oldest rest).ledger = s.ledger ∨ ∃ h, s.firstSettling = some h ∧ (s.takeRest oldest rest).ledger =
      ((s.removeHire h.number).setHires ((s.removeHire h.number).hires.records.map Hire.moveUp)).ledger := by
  unfold State.takeRest
  split
  · exact .inl rfl
  · next h first =>
    refine .inr ⟨h, first, ?_⟩
    dsimp only
    rw [State.drawIn_of_queued _ h _ (by simp) rfl]
    simp only [State.setQueue_ledger, State.setHires_ledger, State.removeHire, State.modifyCounters_ledger]
    rfl

theorem Hire.moveUp_kept (h : Hire) :
    h.moveUp.number = h.number ∧ h.moveUp.state = h.state ∧ h.moveUp.preset = h.preset ∧ h.moveUp.lines = h.lines := by
  unfold Hire.moveUp
  split <;> exact ⟨rfl, rfl, rfl, rfl⟩

section settling
variable {s : State} (law : s.demandCounted)
include law

/-- The SETTLING hire that is drawn in is what its number finds, with no line OUT (R126, R146). -/
theorem State.demandCounted.firstSettling {h : Hire} (first : s.firstSettling = some h) :
    s.hire h.number = some h ∧ h.anyOut = false := by
  have mem := List.mem_of_find?_eq_some first
  have settling : h.state = .settling := by
    have := List.find?_some first
    simp only [Bool.and_eq_true, beq_iff_eq] at this
    exact this.1
  exact ⟨(State.mem_hires_iff law.sorted h).mp mem, law.2.2.2.1 h mem settling⟩

theorem takeSettlement_demandCounted (x : Unit) : (takeSettlement x s).state.demandCounted := by
  unfold takeSettlement
  split
  · exact law
  · next r rest _ =>
    rcases s.takeRest_ledger r rest with same | ⟨h, first, drawn⟩
    · exact State.demandCounted_congr same law
    · obtain ⟨found, done⟩ := law.firstSettling first
      have removed : (s.removeHire h.number).demandCounted := law.of_remove (k := h.number) (fun a here => by
        cases found.symm.trans here
        exact done) rfl rfl fun _ => rfl
      exact State.demandCounted_congr drawn (removed.of_map Hire.moveUp_kept rfl rfl fun _ => rfl)

/-- R130's check of one hire sets its flag, or nothing. -/
theorem State.demandCounted.checkOverdue {h : Hire} : (s.checkOverdue h).demandCounted := by
  rcases s.checkOverdue_cases h with ⟨-, flagged⟩ | ⟨-, same⟩
  · rw [flagged]
    refine State.demandCounted_congr (State.notify_ledger ..)
      (law.of_map (f := fun x => if x.number = h.number then { x with overdue := true } else x) (fun x => ?_) rfl rfl
        fun _ => rfl)
    split <;> exact ⟨rfl, rfl, rfl, rfl⟩
  · rwa [same]

end settling

/-! ### Returns and write-offs -/

section lines
variable {s : State} {h : Hire} {n i : Nat}

/-- An OUT line that stops counting takes one from its hire's part. -/
theorem Hire.demandFor_of_line {g : Hire} {f : Line → Line} (opened : h.state = .opened) (line : h.outLine n = some i)
    (hf : ∀ l, (f l).state ≠ .out) (state : g.state = h.state) (preset : g.preset = h.preset)
    (lines : g.lines = (h.modifyLine i f).lines) (p : Prog) :
    g.demandFor p + (if h.preset = some p then 1 else 0) = h.demandFor p := by
  have count : g.outCount = (h.modifyLine i f).outCount := by rw [Hire.outCount, Hire.outCount, lines]
  have out := Hire.modifyLine_outCount line hf
  rw [Hire.demandFor_of_opened (state.trans opened), Hire.demandFor_of_opened opened, preset, count]
  split <;> omega

/-- The record of hire `h` with a line given up, and the preset's count one lower (R118, R122). -/
theorem State.demandCounted.of_line {t : State} {f : Line → Line} {g : Hire → Hire} (law : s.demandCounted)
    (found : s.hire h.number = some h) (line : h.outLine n = some i) (hf : ∀ l, (f l).state ≠ .out)
    (hg : ∀ x, (g x).number = x.number ∧ (g x).state = x.state ∧ (g x).preset = x.preset ∧
      (g x).lines = (x.modifyLine i f).lines)
    (books : t.books = ((s.modifyHire h.number g).changeDemand h.preset (· - 1)).books) : t.demandCounted := by
  have opened := law.opened found (Hire.outLine_isSome line)
  obtain ⟨-, state, preset, lines⟩ := hg h
  refine law.of_modify found (fun x => (hg x).1) ((State.books_hires books).trans (State.changeDemand_hires ..))
    ((State.books_startup books).trans (State.changeDemand_startup ..)) (fun settling => ?_) fun p le => ?_
  · rw [state, opened] at settling
    cases settling
  · have part := Hire.demandFor_of_line opened line hf state preset lines p
    rw [State.books_demand books, State.changeDemand_demand]
    show (if _ then (s.program p).demand - 1 else (s.program p).demand) + _ = _
    split at part
    · next same =>
      rw [if_pos same]
      omega
    · next other =>
      rw [if_neg other]
      omega

/-- The line that a return resolves (R118). -/
theorem State.lineOf_some {r : Receiver} (line : s.lineOf r = some (h, i)) :
    s.hire h.number = some h ∧ r.hire = some h.number ∧ h.outLine r.number = some i := by
  unfold State.lineOf at line
  split at line
  · cases line
  · next x found =>
    obtain ⟨k, named, here⟩ := Option.bind_eq_some_iff.mp found
    obtain ⟨j, index, same⟩ := Option.map_eq_some_iff.mp line
    cases same
    rw [s.hire_number here]
    exact ⟨here, named, index⟩

variable (law : s.demandCounted)
include law

theorem State.demandCounted.returnLine (found : s.hire h.number = some h) (line : h.outLine n = some i) :
    (s.returnLine h i n).demandCounted := by
  refine law.of_line found line (f := fun l => l.giveBack s.session.clock (s.presetOutage h.preset))
    (g := Hire.giveBack i s.session.clock s.session.valid (s.presetOutage h.preset)) (fun _ => nofun)
    (fun _ => ⟨rfl, rfl, rfl, rfl⟩) ?_
  exact State.changeDemand_books _ _ (State.unrackReceiver_books ..)

theorem State.demandCounted.returnReceiver {r : Receiver} : (s.returnReceiver r).1.demandCounted := by
  cases line : s.lineOf r with
  | none =>
    rw [State.returnReceiver_of_none line]
    exact law.of_books (s.unrackReceiver_books _)
  | some x =>
    obtain ⟨found, -, index⟩ := State.lineOf_some line
    rw [State.returnReceiver_of_line line]
    exact (law.returnLine found index).closeIfDone

theorem State.demandCounted.writeOffLine (found : s.hire h.number = some h) (line : h.outLine n = some i) :
    (s.writeOffLine h i n).demandCounted := by
  refine law.of_line found line (f := fun l => { l with state := .lost })
    (g := fun x => x.modifyLine i fun l => { l with state := .lost }) (fun _ => nofun) (fun _ => ⟨rfl, rfl, rfl, rfl⟩) ?_
  exact State.changeDemand_books _ _ (State.loseReceiver_books ..)

end lines

section bodies
variable {s : State} (law : s.demandCounted)
include law

theorem returnReceiver_demandCounted (n : Nat) : (returnReceiver n s).state.demandCounted := by
  unfold returnReceiver
  split
  · exact law
  · split
    · exact law.returnReceiver
    · exact law.of_books (s.unrackReceiver_books n)
    all_goals exact law

theorem writeOff_demandCounted (k n : Nat) : (writeOff k n s).state.demandCounted := by
  unfold writeOff
  split
  · exact law
  · next h found =>
    split
    · exact law
    · split
      · exact law
      · next i line => exact (law.writeOffLine ((s.hire_number found).symm ▸ found) line).closeIfDone

theorem rackSeated_demandCounted (n : Nat) (k : Fin 512) (b : Nat) : (rackSeated n k b s).state.demandCounted := by
  cases found : s.receiver n with
  | none =>
    unfold rackSeated
    rw [found]
    exact law
  | some r =>
    have returned : (s.implicitReturn r).1.demandCounted := by
      unfold State.implicitReturn
      split
      · exact law.returnReceiver
      all_goals exact law
    rw [rackSeated_of_some found rfl rfl]
    exact returned.of_books ((State.seatAndPlace_books ..).trans (State.displace_books ..))

/-- A new line counts (R117, R128). -/
theorem State.demandCounted.addLine {h : Hire} {n : Nat} (found : s.hire h.number = some h) (opened : h.state = .opened) :
    (s.addLine h n).demandCounted := by
  have books : (s.addLine h n).books =
      ((s.modifyHire h.number (Hire.withLine (s.presetOutage h.preset) n)).changeDemand h.preset (· + 1)).books :=
    State.changeDemand_books _ _ (State.issueReceiver_books ..)
  refine law.of_modify (f := Hire.withLine (s.presetOutage h.preset) n) found (fun _ => rfl)
    ((State.books_hires books).trans (State.changeDemand_hires ..))
    ((State.books_startup books).trans (State.changeDemand_startup ..)) (fun settling => ?_) fun p _ => ?_
  · cases opened.symm.trans settling
  · have longer := Hire.demandFor_of_opened (h := h.withLine (s.presetOutage h.preset) n) opened p
    rw [Hire.withLine_outCount, show (Hire.withLine _ n h).preset = h.preset from rfl] at longer
    rw [State.books_demand books, State.changeDemand_demand, Hire.demandFor_of_opened opened, longer]
    have stands (f : Hire → Hire) : ((s.modifyHire h.number f).program p).demand = (s.program p).demand := rfl
    rw [stands]
    split_ifs <;> omega

theorem addReceiver_demandCounted (k n : Nat) : (addReceiver k n s).state.demandCounted := by
  unfold addReceiver
  split
  · exact law
  · next h found =>
    split
    · exact law
    · next opened =>
      split
      · exact law
      · split
        · exact law
        · split
          · exact law
          · exact law.addLine ((s.hire_number found).symm ▸ found) (Hire.opened_of_not_settling opened)

/-- A hire's OUT lines move from one demand count to another (R123, R128). -/
theorem State.demandCounted.movePreset {h : Hire} {preset : Option Prog} (found : s.hire h.number = some h)
    (opened : h.state = .opened) (other : preset ≠ h.preset) : (s.movePreset h preset).demandCounted := by
  refine law.of_modify (f := Hire.moveTo preset (s.presetOutage h.preset) (s.presetOutage preset)) found (fun _ => rfl)
    ((State.changeDemand_hires ..).trans (State.changeDemand_hires ..))
    ((State.changeDemand_startup ..).trans (State.changeDemand_startup ..)) (fun settling => ?_) fun p le => ?_
  · cases opened.symm.trans settling
  · have moved := Hire.demandFor_of_opened (h := h.moveTo preset (s.presetOutage h.preset) (s.presetOutage preset)) opened p
    rw [Hire.moveTo_outCount, show (Hire.moveTo preset _ _ h).preset = preset from rfl] at moved
    rw [Hire.demandFor_of_opened opened] at le ⊢
    rw [moved, State.movePreset, State.changeDemand_demand, State.changeDemand_demand]
    have stands (f : Hire → Hire) : ((s.modifyHire h.number f).program p).demand = (s.program p).demand := rfl
    rw [stands]
    by_cases old : h.preset = some p
    · have new : preset ≠ some p := fun same => other (same.trans old.symm)
      rw [if_pos old] at le
      rw [if_neg new, if_pos old, if_pos old, if_neg new]
      omega
    · rw [if_neg old, if_neg old]
      split_ifs <;> omega

theorem changePreset_demandCounted (k : Nat) (preset : Option Prog) : (changePreset k preset s).state.demandCounted := by
  unfold changePreset
  split
  · exact law
  · next h found =>
    split
    · exact law
    · next opened =>
      split
      · exact law
      · split
        · exact law
        · next other =>
          exact law.movePreset ((s.hire_number found).symm ▸ found) (Hire.opened_of_not_settling opened) other

/-- The new record takes its place under a number of its own, and its lines count (R116). -/
theorem State.demandCounted.openHire {a : OpenArgs} (room : s.hires.records.length < 512) :
    (s.openHire (freeHireNumber s.hires.records 513 s.hires.counter) a).demandCounted := by
  obtain ⟨-, -, ⟨lo, hi⟩, -, -⟩ := id law
  have fresh := freeHireNumber_free room.le lo hi
  generalize freeHireNumber s.hires.records 513 s.hires.counter = number at fresh ⊢
  have books : (s.openHire number a).books =
      (((s.setHireCounter (nextHireNumber number)).setHires
        (insertAsc (·.number) (s.newHire number a) s.hires.records)).changeDemand a.preset (· + a.receivers.length)).books :=
    State.changeDemand_books _ _ (State.foldl_books (fun u n => u.issueReceiver_books n number) _ _)
  obtain ⟨low, high⟩ := nextHireNumber_inRange number
  refine law.of_insert (h := s.newHire number a) room rfl fresh low high
    ((State.books_hires books).trans (State.changeDemand_hires ..))
    ((State.books_startup books).trans (State.changeDemand_startup ..)) fun p => ?_
  have count : (s.newHire number a).outCount = a.receivers.length :=
    (Hire.outCount_eq _).trans (newLines_outCount _ a.receivers)
  rw [State.books_demand books, State.changeDemand_demand, Hire.demandFor_of_opened rfl, count]
  show (if _ then (s.program p).demand + _ else (s.program p).demand) =
    (s.program p).demand + if a.preset = some p then _ else _
  split <;> rfl

theorem openHire_demandCounted (a : OpenArgs) : (openHire a s).state.demandCounted := by
  unfold openHire
  split
  · exact law
  · split
    · exact law
    · next room =>
      split
      · exact law
      · split
        · exact law
        · split
          · exact law
          · exact law.openHire (by omega)

end bodies

end Sys2Proof.Machine
end

section
/-! SUPPORT. Scope, the law between receivers and hire lines (R93, R112): read by hire and by receiver it says how many OUT lines a
hire holds for a receiver (`State.LinesHold`), and it passes by a rule for each way in which the records change. -/

namespace Sys2Proof.Machine

/-! ### The law by hire and by receiver -/

/-- The hire that a record names while it is ON_HIRE (R93). -/
def Receiver.hired (r : Receiver) : Option Nat := if r.state = .onHire then r.hire else none

/-- The hire that receiver `n` is out on. -/
def State.hireOf (s : State) (n : Nat) : Option Nat := (s.receiver n).bind Receiver.hired

/-- The OUT lines that hire `k` holds for receiver `n`; none without a record. -/
def State.outs (s : State) (k n : Nat) : Nat := ((s.hire k).map (·.outFor n)).getD 0

/-- The law between receivers and lines: the records fit and stand in order, and hire `k` holds one OUT line for receiver `n` if
that is the hire it is out on, and else none. -/
structure State.LinesHold (s : State) : Prop where
  sorted : s.numbers.Pairwise (· < ·)
  fits : ∀ n r, s.receiver n = some r → r.fits
  outs : ∀ k n, s.outs k n = if s.hireOf n = some k then 1 else 0

section reading
variable {s : State}

theorem State.outs_of_some {k : Nat} {h : Hire} (found : s.hire k = some h) (n : Nat) : s.outs k n = h.outFor n := by
  rw [State.outs, found]
  rfl

theorem State.hireOf_of_some {n : Nat} {r : Receiver} (found : s.receiver n = some r) : s.hireOf n = r.hired := by
  rw [State.hireOf, found]
  rfl

theorem Receiver.hired_eq_some {r : Receiver} {k : Nat} : r.hired = some k ↔ r.state = .onHire ∧ r.hire = some k := by
  unfold Receiver.hired
  split <;> simp_all

theorem Receiver.hired_of_ne {r : Receiver} (other : r.state ≠ .onHire) : r.hired = none := if_neg other

theorem Hire.outFor_pos {h : Hire} {n : Nat} : 0 < h.outFor n ↔ ∃ l ∈ h.lines, l.receiver = n ∧ l.state = .out := by
  simp [Hire.outFor, List.countP_pos_iff]

theorem State.mem_receivers_iff (sorted : s.numbers.Pairwise (· < ·)) (r : Receiver) :
    r ∈ s.registry.receivers ↔ s.receiver r.number = some r :=
  mem_iff_find? (key := Receiver.number) (s.numbers_pairwise.mp sorted) r

theorem State.LinesHold.of_linesAgree (hires : s.hiresSorted) (law : s.linesAgree) : s.LinesHold where
  sorted := s.numbers_pairwise.mpr law.order
  fits n r found := law.fits r (List.mem_of_find?_eq_some found)
  outs k n := by
    split
    · next named =>
      obtain ⟨r, found, hired⟩ := Option.bind_eq_some_iff.mp named
      obtain ⟨out, hire⟩ := Receiver.hired_eq_some.mp hired
      obtain ⟨h, mem, same, one⟩ := law.onHire r (List.mem_of_find?_eq_some found) out
      cases hire.symm.trans same
      rw [State.outs_of_some ((State.mem_hires_iff hires h).mp mem), ← s.receiver_number found, one]
    · next other =>
      cases found : s.hire k with
      | none => rw [State.outs, found]; rfl
      | some h =>
        rw [State.outs_of_some found]
        by_contra some
        obtain ⟨l, mem, rfl, out⟩ := Hire.outFor_pos.mp (Nat.pos_of_ne_zero some)
        obtain ⟨r, holds, same, state, hire⟩ := law.out h (List.mem_of_find?_eq_some found) l mem out
        refine other ?_
        have present := (State.mem_receivers_iff (s.numbers_pairwise.mpr law.order) r).mp holds
        rw [same] at present
        rw [State.hireOf_of_some present, Receiver.hired_eq_some, hire, s.hire_number found]
        exact ⟨state, rfl⟩

theorem State.LinesHold.linesAgree (hires : s.hiresSorted) (law : s.LinesHold) : s.linesAgree where
  order := s.numbers_pairwise.mp law.sorted
  fits r mem := law.fits r.number r ((State.mem_receivers_iff law.sorted r).mp mem)
  onHire r mem out := by
    have present := (State.mem_receivers_iff law.sorted r).mp mem
    obtain ⟨-, -, named, -⟩ := law.fits r.number r present
    obtain ⟨k, hire⟩ := Option.ne_none_iff_exists'.mp (named out)
    have one := law.outs k r.number
    rw [State.hireOf_of_some present, if_pos (Receiver.hired_eq_some.mpr ⟨out, hire⟩)] at one
    cases found : s.hire k with
    | none =>
      rw [State.outs, found] at one
      cases one
    | some h =>
      rw [State.outs_of_some found] at one
      exact ⟨h, List.mem_of_find?_eq_some found, by rw [hire, s.hire_number found], one⟩
  out h mem l line out := by
    have found := (State.mem_hires_iff hires h).mp mem
    have some := law.outs h.number l.receiver
    rw [State.outs_of_some found] at some
    have pos := Hire.outFor_pos.mpr ⟨l, line, rfl, out⟩
    split at some
    · next named =>
      obtain ⟨r, present, hired⟩ := Option.bind_eq_some_iff.mp named
      obtain ⟨state, hire⟩ := Receiver.hired_eq_some.mp hired
      exact ⟨r, List.mem_of_find?_eq_some present, s.receiver_number present, state, hire⟩
    · omega

end reading

/-! ### How the records read after a change -/

section changes
variable {s t : State}

theorem State.hireOf_of_receiver {n : Nat} {x : Option Receiver} (h : t.receiver = Function.update s.receiver n x) :
    t.hireOf = Function.update s.hireOf n (x.bind Receiver.hired) := by
  funext m
  rw [State.hireOf, h]
  by_cases same : m = n
  · rw [same, Function.update_self, Function.update_self]
  · rw [Function.update_of_ne same, Function.update_of_ne same]
    rfl

theorem State.outs_congr (h : t.hires = s.hires) : t.outs = s.outs := by
  unfold State.outs
  rw [State.hire_congr h]

theorem State.hireOf_congr (h : t.registry = s.registry) : t.hireOf = s.hireOf := by
  unfold State.hireOf
  rw [State.receiver_congr h]

/-- The OUT lines after the record of hire `k` is changed. -/
theorem State.outs_modifyHire {k : Nat} {x : Hire} {f : Hire → Hire} (found : s.hire k = some x)
    (hf : ∀ h, (f h).number = h.number) (hires : t.hires = (s.modifyHire k f).hires) (j m : Nat) :
    t.outs j m = if j = k then (f x).outFor m else s.outs j m := by
  rw [State.outs_congr hires, State.outs, s.modifyHire_hire hf, Function.update_apply, found]
  split <;> rfl

theorem State.outs_removeHire {k : Nat} (done : ∀ h, s.hire k = some h → h.anyOut = false)
    (hires : t.hires = (s.removeHire k).hires) : t.outs = s.outs := by
  funext j m
  rw [State.outs_congr hires, State.outs, s.removeHire_hire, Function.update_apply]
  split
  · next same =>
    subst same
    cases found : s.hire j with
    | none => rw [State.outs, found]
    | some h => rw [State.outs_of_some found, Hire.outFor_eq_zero (done h found)]; rfl
  · rfl

/-- Records changed alike, their numbers kept, are found as before. -/
theorem find?_map_key {α : Type} {key : α → Nat} {f : α → α} (hf : ∀ a, key (f a) = key a) (l : List α) (n : Nat) :
    (l.map f).find? (fun a => key a == n) = (l.find? fun a => key a == n).map f := by
  rw [List.find?_map]
  simp only [Function.comp_def, hf]

theorem State.outs_map {f : Hire → Hire} (hf : ∀ h, (f h).number = h.number ∧ (f h).lines = h.lines)
    (records : t.hires.records = s.hires.records.map f) : t.outs = s.outs := by
  funext j m
  have found : t.hire j = (s.hire j).map f := by
    unfold State.hire
    rw [records]
    exact find?_map_key (key := Hire.number) (fun h => (hf h).1) _ j
  rw [State.outs, State.outs, found, Option.map_map]
  simp only [Function.comp_def, Hire.outFor, hf]

end changes

/-! ### How the law passes -/

section rules
variable {s t : State} {n k : Nat} (law : s.LinesHold)
include law

/-- The receivers stand, and each hire holds the lines it held. -/
theorem State.LinesHold.of_outs (registry : t.registry = s.registry) (outs : t.outs = s.outs) : t.LinesHold where
  sorted := by
    rw [State.numbers_congr registry]
    exact law.sorted
  fits := by
    rw [State.receiver_congr registry]
    exact law.fits
  outs := by
    rw [State.hireOf_congr registry, outs]
    exact law.outs

/-- A receiver is out on the hire that holds a line OUT for it. -/
theorem State.LinesHold.hireOf_of_outs (held : s.outs k n ≠ 0) : s.hireOf n = some k := by
  by_contra other
  exact held ((law.outs k n).trans (if_neg other))

/-- The record of receiver `n` is changed to one that fits. -/
theorem State.LinesHold.fits_of_update {f : Receiver → Receiver}
    (receiver : t.receiver = Function.update s.receiver n ((s.receiver n).map f))
    (hf : ∀ r, s.receiver n = some r → r.fits → (f r).fits) : ∀ m r, t.receiver m = some r → r.fits := by
  intro m r found
  rw [receiver, Function.update_apply] at found
  split at found
  · obtain ⟨q, present, rfl⟩ := Option.map_eq_some_iff.mp found
    exact hf q present (law.fits n q present)
  · exact law.fits m r found

/-- The record of receiver `n` is changed to one that fits, out on the same hire if any. -/
theorem State.LinesHold.of_update {f : Receiver → Receiver} (hires : t.hires = s.hires) (numbers : t.numbers = s.numbers)
    (receiver : t.receiver = Function.update s.receiver n ((s.receiver n).map f))
    (hf : ∀ r, s.receiver n = some r → r.fits → (f r).fits ∧ (f r).hired = r.hired) : t.LinesHold where
  sorted := numbers ▸ law.sorted
  fits := law.fits_of_update receiver fun r found fits => (hf r found fits).1
  outs := by
    have same : t.hireOf = s.hireOf := by
      rw [State.hireOf_of_receiver receiver, Function.update_eq_self_iff, State.hireOf]
      cases found : s.receiver n with
      | none => rfl
      | some r => exact (hf r found (law.fits n r found)).2
    rw [State.outs_congr hires, same]
    exact law.outs

/-- The records are changed all alike to ones that fit, each out on the same hire if any. -/
theorem State.LinesHold.of_map {f : Receiver → Receiver} (hires : t.hires = s.hires)
    (receivers : t.registry.receivers = s.registry.receivers.map f)
    (number : ∀ r, (f r).number = r.number) (hf : ∀ r : Receiver, r.fits → (f r).fits ∧ (f r).hired = r.hired) :
    t.LinesHold := by
  have receiver (m : Nat) : t.receiver m = (s.receiver m).map f := by
    unfold State.receiver
    rw [receivers]
    exact find?_map_key (key := Receiver.number) number _ m
  have numbers : t.numbers = s.numbers := by
    simp only [State.numbers, receivers, List.map_map, Function.comp_def, number]
  refine ⟨numbers ▸ law.sorted, fun m r found => ?_, fun j m => ?_⟩
  · obtain ⟨q, present, rfl⟩ := Option.map_eq_some_iff.mp ((receiver m).symm.trans found)
    exact (hf q (law.fits m q present)).1
  · have same : t.hireOf m = s.hireOf m := by
      rw [State.hireOf, State.hireOf, receiver]
      cases found : s.receiver m with
      | none => rfl
      | some r => exact (hf r (law.fits m r found)).2
    rw [State.outs_congr hires, same]
    exact law.outs j m

/-- A line of hire `k` for receiver `n` stops being OUT, and the receiver with it (R118, R122). -/
theorem State.LinesHold.of_back {f : Receiver → Receiver} (out : s.hireOf n = some k) (numbers : t.numbers = s.numbers)
    (receiver : t.receiver = Function.update s.receiver n ((s.receiver n).map f))
    (hf : ∀ r, s.receiver n = some r → r.fits → (f r).fits ∧ (f r).hired = none)
    (outs : ∀ j m, t.outs j m + (if j = k ∧ m = n then 1 else 0) = s.outs j m) : t.LinesHold where
  sorted := numbers ▸ law.sorted
  fits := law.fits_of_update receiver fun r found fits => (hf r found fits).1
  outs j m := by
    have free : ((s.receiver n).map f).bind Receiver.hired = none := by
      cases found : s.receiver n with
      | none => rfl
      | some r => exact (hf r found (law.fits n r found)).2
    have after := outs j m
    have before := law.outs j m
    rw [State.hireOf_of_receiver receiver, free, Function.update_apply]
    grind

/-- Hire `k` holds a new OUT line for receiver `n`, which is out on it (R117). -/
theorem State.LinesHold.of_issue {f : Receiver → Receiver} (free : s.hireOf n = none) (numbers : t.numbers = s.numbers)
    (present : (s.receiver n).isSome) (receiver : t.receiver = Function.update s.receiver n ((s.receiver n).map f))
    (hf : ∀ r, s.receiver n = some r → r.fits → (f r).fits ∧ (f r).hired = some k)
    (outs : ∀ j m, t.outs j m = s.outs j m + if j = k ∧ m = n then 1 else 0) : t.LinesHold where
  sorted := numbers ▸ law.sorted
  fits := law.fits_of_update receiver fun r found fits => (hf r found fits).1
  outs j m := by
    have named : ((s.receiver n).map f).bind Receiver.hired = some k := by
      obtain ⟨r, found⟩ := Option.isSome_iff_exists.mp present
      rw [found]
      exact (hf r found (law.fits n r found)).2
    have after := outs j m
    have before := law.outs j m
    rw [State.hireOf_of_receiver receiver, named, Function.update_apply]
    grind

/-- A new hire `k` holds one OUT line for each receiver of the list `l`, and they are out on it (R116). -/
theorem State.LinesHold.of_open {l : List Nat} {f : Receiver → Receiver} (fresh : s.hire k = none)
    (numbers : t.numbers = s.numbers)
    (receiver : ∀ m, t.receiver m = if m ∈ l then (s.receiver m).map f else s.receiver m)
    (free : ∀ m ∈ l, ∃ r, s.receiver m = some r ∧ r.hired = none ∧ (f r).fits ∧ (f r).hired = some k)
    (outs : ∀ j m, t.outs j m = if j = k then (if m ∈ l then 1 else 0) else s.outs j m) : t.LinesHold where
  sorted := numbers ▸ law.sorted
  fits m r found := by
    rw [receiver] at found
    split at found
    · next listed =>
      obtain ⟨q, present, -, fits, -⟩ := free m listed
      rw [present] at found
      cases found
      exact fits
    · exact law.fits m r found
  outs j m := by
    have before := law.outs j m
    have unnamed : s.hireOf m ≠ some k := fun named => by
      have one := (law.outs k m).trans (if_pos named)
      rw [State.outs, fresh] at one
      cases one
    rw [outs, State.hireOf, receiver]
    by_cases listed : m ∈ l
    · obtain ⟨q, present, unhired, -, hired⟩ := free m listed
      rw [State.hireOf_of_some present, unhired] at before
      rw [if_pos listed, if_pos listed, present, Option.map_some, Option.bind_some, hired, before]
      simp only [Option.some.injEq, eq_comm (a := k), reduceCtorEq, if_false]
    · rw [if_neg listed, if_neg listed, before]
      show _ = if s.hireOf m = some j then 1 else 0
      split
      · next new => rw [new, if_neg unnamed]
      · rfl

end rules

end Sys2Proof.Machine
end

section
/-! SUPPORT. Scope, the law between receivers and hire lines under the events: what each change of a receiver record leaves of its
pattern (R93), and each command's part of the law. -/

namespace Sys2Proof.Machine

/-! ### The records fit after a change (R93) -/

theorem ReceiverState.racked_iff {x : ReceiverState} : x.racked = true ↔ x = .ready ∨ x = .charging := by
  rw [ReceiverState.racked_eq, decide_eq_true_eq]

theorem ReceiverState.ne_of_racked {x y : ReceiverState} (h : x.racked = true) (other : y.racked = false) : x ≠ y := by
  rintro rfl
  exact absurd h (Bool.eq_false_iff.mp other)

/-- A racked record in a slot, out on no hire, fits. -/
theorem Receiver.fits_of_racked {r : Receiver} (state : r.state.racked = true) (slot : r.slot ≠ none) (hire : r.hire = none) :
    r.fits :=
  ⟨fun _ => ReceiverState.racked_iff.mp state, fun _ => ⟨slot, hire⟩, fun h => absurd h (ReceiverState.ne_of_racked state rfl),
    fun h => absurd h (ReceiverState.ne_of_racked state rfl), fun h => absurd h (ReceiverState.ne_of_racked state rfl),
    fun _ => hire⟩

theorem Receiver.fits_of_unracked {r : Receiver} (state : r.state = .unracked) (mark : r.mark = false) (slot : r.slot = none)
    (hire : r.hire = none) : r.fits := by
  simp [Receiver.fits, state, mark, slot, hire]

theorem Receiver.fits_of_lost {r : Receiver} {k : Nat} (state : r.state = .lost) (mark : r.mark = false) (slot : r.slot = none)
    (hire : r.hire = some k) : r.fits := by
  simp [Receiver.fits, state, mark, slot, hire]

theorem Receiver.fits_of_withdrawn {r : Receiver} (state : r.state = .withdrawn) (mark : r.mark = false)
    (hire : r.hire = none) : r.fits := by
  simp [Receiver.fits, state, mark, hire]

theorem Receiver.fits_of_onHire {r : Receiver} {k : Nat} (state : r.state = .onHire) (mark : r.mark = false)
    (hire : r.hire = some k) : r.fits := by
  simp [Receiver.fits, state, mark, hire]

theorem Receiver.hired_of_racked {r : Receiver} (h : r.state.racked = true) : r.hired = none :=
  Receiver.hired_of_ne (ReceiverState.ne_of_racked h rfl)

section fits
variable {r : Receiver} (fits : r.fits)
include fits

theorem Receiver.fits_unmarked : r.unmarked.fits := by
  obtain ⟨-, racked, onHire, unracked, lost, withdrawn⟩ := fits
  exact ⟨nofun, racked, onHire, unracked, lost, withdrawn⟩

/-- A record that is not racked is not marked (R107, R108). -/
theorem Receiver.mark_of_not_racked (h : r.state.racked = false) : r.mark = false := by
  obtain ⟨marked, -⟩ := fits
  exact Bool.eq_false_iff.mpr fun mark => Bool.eq_false_iff.mp h (ReceiverState.racked_iff.mpr (marked mark))

theorem Receiver.fits_unslotted (h : r.state.racked = false) : r.unslotted.fits := by
  obtain ⟨marked, racked, onHire, unracked, lost, withdrawn⟩ := fits
  exact ⟨marked, fun ready => absurd (ReceiverState.racked_iff.mpr ready) (Bool.eq_false_iff.mp h), onHire,
    fun state => ⟨rfl, (unracked state).2⟩, fun state => ⟨rfl, (lost state).2⟩, withdrawn⟩

theorem Receiver.fits_pulled (h : r.state.racked = true) : r.pulled.fits := by
  obtain ⟨-, racked, -⟩ := fits
  obtain ⟨-, free⟩ := racked (ReceiverState.racked_iff.mp h)
  exact Receiver.fits_of_unracked rfl rfl rfl free

theorem Receiver.fits_unracked (h : r.state.racked = false) : r.unracked.fits := by
  have unmarked := Receiver.mark_of_not_racked fits h
  exact Receiver.fits_of_unracked rfl unmarked rfl rfl

end fits

/-- Under the law a receiver that is not ON_HIRE and not LOST names no hire (R93). -/
theorem Receiver.hire_of_fits {r : Receiver} (fits : r.fits) (out : r.state ≠ .onHire) (lost : r.state ≠ .lost) :
    r.hire = none := by
  obtain ⟨-, racked, -, unracked, -, withdrawn⟩ := fits
  cases state : r.state with
  | ready => exact (racked (.inl state)).2
  | charging => exact (racked (.inr state)).2
  | onHire => exact absurd state out
  | unracked => exact (unracked state).2
  | lost => exact absurd state lost
  | withdrawn => exact withdrawn state

theorem rackedState_racked (threshold : Nat) (b : Option Nat) : (rackedState threshold b).racked = true := by
  unfold rackedState
  split
  · split <;> rfl
  · rfl

theorem Receiver.replace_number (threshold : Nat) (r : Receiver) : (r.replace threshold).number = r.number := by
  rw [Receiver.replace_eq]
  split <;> rfl

/-- A record placed again by a battery fits, whatever battery it reports (R100, R103). -/
theorem Receiver.fits_replace {r : Receiver} (fits : r.fits) {threshold : Nat} {b : Option Nat} :
    (({ r with battery := b } : Receiver).replace threshold).fits ∧
      (({ r with battery := b } : Receiver).replace threshold).hired = r.hired := by
  unfold Receiver.replace
  split
  · next racked =>
    obtain ⟨-, placed, -⟩ := fits
    obtain ⟨slot, free⟩ := placed (ReceiverState.racked_iff.mp racked)
    have again := rackedState_racked threshold b
    exact ⟨Receiver.fits_of_racked again slot free,
      (Receiver.hired_of_racked again).trans (Receiver.hired_of_racked racked).symm⟩
  · exact ⟨fits, rfl⟩

theorem Receiver.settle_number (threshold b : Nat) (taken : ReceiverState) (r : Receiver) :
    (r.settle threshold b taken).number = r.number := by
  cases taken <;> rfl

/-- A record written off on hire `k` (R105). -/
def Receiver.lostOn (k : Nat) (r : Receiver) : Receiver := { r with state := .lost, hire := some k, slot := none }

theorem State.loseReceiver_receiver (s : State) (n k : Nat) :
    (s.loseReceiver n k).receiver = Function.update s.receiver n ((s.receiver n).map (Receiver.lostOn k)) := by
  rw [State.loseReceiver, State.modifyReceiver_receiver _ (f := fun r => { r with state := .lost, hire := some k })
    fun _ => rfl, State.freeSlot_receiver, Function.update_self, Function.update_idem, Option.map_map]
  rfl

theorem State.loseReceiver_numbers (s : State) (n k : Nat) : (s.loseReceiver n k).numbers = s.numbers := by
  rw [State.loseReceiver, State.modifyReceiver_numbers _ (f := fun r => { r with state := .lost, hire := some k })
    fun _ => rfl, State.freeSlot_numbers]

/-- A record issued on hire `k` (R105). -/
def Receiver.issued (k : Nat) (r : Receiver) : Receiver :=
  { r with state := .onHire, hire := some k, issues := min 65535 (r.issues + 1), mark := false }

theorem State.issueReceiver_receiver (s : State) (n k : Nat) :
    (s.issueReceiver n k).receiver = Function.update s.receiver n ((s.receiver n).map (Receiver.issued k)) := by
  rw [State.issueReceiver, State.modifyReceiver_receiver _
    (f := fun r => { r with state := .onHire, hire := some k, issues := min 65535 (r.issues + 1) }) fun _ => rfl,
    State.clearMark_receiver, Function.update_self, Function.update_idem, Option.map_map]
  rfl

theorem State.issueReceiver_numbers (s : State) (n k : Nat) : (s.issueReceiver n k).numbers = s.numbers := by
  rw [State.issueReceiver, State.modifyReceiver_numbers _
    (f := fun r => { r with state := .onHire, hire := some k, issues := min 65535 (r.issues + 1) }) fun _ => rfl,
    State.clearMark_numbers]

/-! ### The registry's commands keep the law -/

section registry
variable {s : State} (law : s.LinesHold)
include law

theorem State.LinesHold.clearMark {n : Nat} : (s.clearMark n).LinesHold :=
  law.of_update (State.books_hires (s.clearMark_books n)) (s.clearMark_numbers n) (s.clearMark_receiver n)
    fun _ _ fits => ⟨Receiver.fits_unmarked fits, rfl⟩

theorem State.LinesHold.freeSlot {n : Nat} (h : ∀ r, s.receiver n = some r → r.state.racked = false) :
    (s.freeSlot n).LinesHold :=
  law.of_update (State.books_hires (s.freeSlot_books n)) (s.freeSlot_numbers n) (s.freeSlot_receiver n)
    fun r found fits => ⟨Receiver.fits_unslotted fits (h r found), rfl⟩

theorem State.LinesHold.pullFromRack {m c : Nat} {k : Fin 512} (h : ∀ r, s.receiver m = some r → r.state.racked = true) :
    (s.pullFromRack m k c).LinesHold :=
  law.of_update (State.books_hires (s.pullFromRack_books m k c)) (s.pullFromRack_numbers m k c) (s.pullFromRack_receiver m k c)
    fun r found fits => ⟨Receiver.fits_pulled fits (h r found), (Receiver.hired_of_racked (h r found)).symm⟩

/-- The record of receiver `n` is changed to one that fits and is out on the same hire. -/
theorem State.LinesHold.modifyReceiver {n : Nat} {f : Receiver → Receiver} (number : ∀ r, (f r).number = r.number)
    (hf : ∀ r, s.receiver n = some r → r.fits → (f r).fits ∧ (f r).hired = r.hired) : (s.modifyReceiver n f).LinesHold :=
  law.of_update rfl (s.modifyReceiver_numbers number n) (s.modifyReceiver_receiver number n) hf

theorem enrolReceiver_linesHold (n : Nat) : (enrolReceiver n s).state.LinesHold := by
  unfold enrolReceiver
  dsimp only
  split
  · exact law
  · next unknown =>
    split
    · exact law
    · have absent : s.receiver n = none := Option.not_isSome_iff_eq_none.mp unknown
      have fresh : ∀ r ∈ s.registry.receivers, r.number ≠ n := fun r mem same =>
        unknown ((s.receiver_isSome n).mpr ⟨r, mem, same⟩)
      have receiver (m : Nat) : (s.setReceivers (insertAsc (·.number) (.enrolled n) s.registry.receivers)).receiver m =
          if m = n then some (.enrolled n) else s.receiver m :=
        find?_insertAsc (key := Receiver.number) (a := .enrolled n) fresh m
      refine ⟨?_, fun m r found => ?_, fun j m => ?_⟩
      · exact (State.numbers_pairwise _).mpr
          (insertAsc_pairwise (key := Receiver.number) (s.numbers_pairwise.mp law.sorted) fresh)
      · rw [receiver] at found
        split at found
        · cases found
          exact Receiver.fits_of_unracked rfl rfl rfl rfl
        · exact law.fits m r found
      · refine (law.outs j m).trans (if_congr (iff_of_eq (congrArg (· = some j) ?_)) rfl rfl)
        rw [State.hireOf, State.hireOf, receiver]
        split
        · next same => rw [same, absent]; rfl
        · rfl

theorem withdrawReceiver_linesHold (n : Nat) : (withdrawReceiver n s).state.LinesHold := by
  have withdraw {r : Receiver} (found : s.receiver n = some r) (out : r.state ≠ .onHire) (lost : r.state ≠ .lost) :
      ((s.clearMark n).setReceiverState n .withdrawn).LinesHold := by
    refine law.clearMark.modifyReceiver (fun _ => rfl) fun q present _ => ?_
    rw [State.clearMark_receiver, Function.update_self, found] at present
    cases present
    have free := Receiver.hire_of_fits (law.fits n r found) out lost
    exact ⟨Receiver.fits_of_withdrawn rfl rfl free, (Receiver.hired_of_ne (r := r.unmarked) out).symm⟩
  unfold withdrawReceiver
  split
  · exact law
  · next r found =>
    split
    · exact law
    all_goals rw [withdrawAnswer_state]
    · exact law
    · next state => exact withdraw found (by simp [state]) (by simp [state])
    · next state => exact withdraw found (by simp [state]) (by simp [state])
    · next state => exact withdraw found (by simp [state]) (by simp [state])
    · next lost =>
      refine law.modifyReceiver (fun _ => rfl) fun q present fits => ?_
      cases found.symm.trans present
      have unmarked := Receiver.mark_of_not_racked fits (by rw [lost]; rfl)
      exact ⟨Receiver.fits_of_withdrawn rfl unmarked rfl, (Receiver.hired_of_ne (by simp [lost])).symm⟩

theorem reinstateReceiver_linesHold (n : Nat) : (reinstateReceiver n s).state.LinesHold := by
  unfold reinstateReceiver
  split
  · exact law
  · next r found =>
    split
    · next state =>
      refine law.modifyReceiver (fun _ => rfl) fun q present fits => ?_
      cases found.symm.trans present
      have unhired : r.hired = none := Receiver.hired_of_ne (by simp [state])
      have free := Receiver.hire_of_fits fits (by simp [state]) (by simp [state])
      have unmarked := Receiver.mark_of_not_racked fits (by rw [state]; rfl)
      unfold Receiver.reinstated
      split
      · next held =>
        have racked := rackedState_racked s.registry.threshold r.battery
        exact ⟨Receiver.fits_of_racked racked (Option.isSome_iff_ne_none.mp held) free,
          (Receiver.hired_of_racked racked).trans unhired.symm⟩
      · next none =>
        exact ⟨Receiver.fits_of_unracked rfl unmarked (Option.not_isSome_iff_eq_none.mp none) free, unhired.symm⟩
    · exact law

/-- The record goes; it is out on no hire (R99). -/
theorem deleteReceiver_linesHold (n : Nat) : (deleteReceiver n s).state.LinesHold := by
  unfold deleteReceiver
  split
  · exact law
  · next r found =>
    split
    · next state =>
      have freed : (s.freeSlot n).LinesHold := law.freeSlot fun q present => by
        cases found.symm.trans present
        rcases state with state | state <;> rw [state] <;> rfl
      have unhired : (s.freeSlot n).hireOf n = none := by
        rw [State.hireOf, State.freeSlot_receiver, Function.update_self, found]
        exact Receiver.hired_of_ne (r := r.unslotted) (by rcases state with state | state <;> simp [Receiver.unslotted, state])
      have receiver (m : Nat) : (s.removeReceiver n).receiver m = if m = n then none else (s.freeSlot n).receiver m :=
        find?_remove (key := Receiver.number) _ n m
      refine ⟨?_, fun m q present => ?_, fun j m => ?_⟩
      · exact (State.numbers_pairwise _).mpr (((State.numbers_pairwise _).mp freed.sorted).filter _)
      · rw [receiver] at present
        split at present
        · cases present
        · exact freed.fits m q present
      · refine (freed.outs j m).trans (if_congr (iff_of_eq (congrArg (· = some j) ?_)) rfl rfl)
        show _ = (s.removeReceiver n).hireOf m
        rw [State.hireOf.eq_1 (s.removeReceiver n), receiver]
        split
        · next same => rw [same, unhired]; rfl
        · rfl
    · exact law

theorem setThreshold_linesHold (v : Nat) : (setThreshold v s).state.LinesHold :=
  law.of_map (f := Receiver.replace (clamp 20 100 v)) rfl rfl (fun r => Receiver.replace_number _ r)
    fun _ fits => Receiver.fits_replace fits

theorem rackBattery_linesHold (n b : Nat) : (rackBattery n b s).state.LinesHold := by
  unfold rackBattery
  split
  · exact law
  · exact law.modifyReceiver (fun r => Receiver.replace_number _ _) fun _ _ fits => Receiver.fits_replace fits

/-- The racked receivers are marked, or none (R107, R110). -/
theorem State.LinesHold.remark {t : State} {mark : Receiver → Bool} (hires : t.hires = s.hires)
    (receivers : t.registry.receivers = s.registry.receivers.map fun r => { r with mark := mark r })
    (marked : ∀ r, mark r = true → r.state.racked = true) : t.LinesHold := by
  refine law.of_map (f := fun r => { r with mark := mark r }) hires receivers (fun _ => rfl) fun r fits => ⟨?_, rfl⟩
  obtain ⟨-, racked, onHire, unracked, lost, withdrawn⟩ := fits
  exact ⟨fun h => ReceiverState.racked_iff.mp (marked r h), racked, onHire, unracked, lost, withdrawn⟩

theorem stocktakeStart_linesHold (x : Unit) : (stocktakeStart x s).state.LinesHold := by
  unfold stocktakeStart
  split
  · exact law
  · exact law.remark (mark := fun r => r.state.racked) rfl rfl fun _ => id

theorem State.LinesHold.clearMarks : s.clearMarks.LinesHold :=
  law.remark (mark := fun _ => false) rfl rfl (fun _ => (nomatch ·))

/-- A receiver still marked leaves its slot; it was racked (R108, R109). -/
theorem stocktakeEnd_linesHold (x : Unit) : (stocktakeEnd x s).state.LinesHold := by
  unfold stocktakeEnd
  split
  · refine law.of_map (f := Receiver.endStocktake) rfl rfl Receiver.endStocktake_number fun r fits => ?_
    unfold Receiver.endStocktake
    split
    · next marked =>
      have racked := ReceiverState.racked_iff.mpr (fits.1 marked)
      exact ⟨Receiver.fits_pulled fits racked, (Receiver.hired_of_racked racked).symm⟩
    · exact ⟨fits, rfl⟩
  · exact law

theorem State.LinesHold.setSlot {k : Fin 512} {v : Option Nat} : (s.setSlot k v).LinesHold := ⟨law.sorted, law.fits, law.outs⟩

theorem rackRemoved_linesHold (k : Fin 512) : (rackRemoved k s).state.LinesHold := by
  unfold rackRemoved State.pull
  split
  · exact law
  · next m _ =>
    dsimp only
    split
    · exact law.setSlot
    · next r found =>
      split
      · next racked =>
        exact law.pullFromRack fun q present => by
          cases found.symm.trans present
          exact racked
      · next other =>
        refine law.clearMark.freeSlot fun q present => ?_
        rw [State.clearMark_receiver, Function.update_self, found] at present
        cases present
        exact Bool.eq_false_iff.mpr other

theorem State.LinesHold.displace {n : Nat} {k : Fin 512} : (s.displace n k).1.LinesHold := by
  unfold State.displace
  split
  · exact law
  · next m _ =>
    split
    · exact law
    · split
      · exact law.setSlot
      · next r found =>
        split
        · next racked =>
          exact law.pullFromRack fun q present => by
            cases found.symm.trans present
            exact racked
        · next other =>
          exact law.freeSlot fun q present => by
            cases found.symm.trans present
            exact Bool.eq_false_iff.mpr other

/-- The seating of a receiver that is out on no hire leaves it racked, or WITHDRAWN as it was (R101, R102). -/
theorem State.LinesHold.seatAndPlace {n : Nat} {k : Fin 512} {b : Nat} {taken : ReceiverState} {q : Receiver}
    (found : s.receiver n = some q) (out : q.state ≠ .onHire) (withdrawn : taken = .withdrawn → q.state = .withdrawn)
    (free : taken ≠ .lost → q.hire = none) : (s.seatAndPlace n k b taken).LinesHold := by
  refine law.of_update (n := n) (f := fun r => ((r.seatedIn k).settle s.registry.threshold b taken).unmarked)
    (State.books_hires (s.seatAndPlace_books n k b taken)) ?_ ?_ fun r present fits => ?_
  · rw [State.seatAndPlace, State.clearMark_numbers, State.modifyReceiver_numbers _ fun r => Receiver.settle_number ..,
      State.seat_numbers]
  · rw [State.seatAndPlace, State.clearMark_receiver, State.modifyReceiver_receiver _ fun r => Receiver.settle_number ..,
      State.seat_receiver]
    simp only [Function.update_self, Function.update_idem, Option.map_map, Function.comp_def]
  · cases found.symm.trans present
    have unhired := Receiver.hired_of_ne out
    have placed := rackedState_racked s.registry.threshold (some b)
    cases taken with
    | withdrawn =>
      exact ⟨Receiver.fits_of_withdrawn (withdrawn rfl) rfl (free nofun), rfl⟩
    | lost => exact ⟨Receiver.fits_of_racked placed nofun rfl, (Receiver.hired_of_racked placed).trans unhired.symm⟩
    | _ => exact ⟨Receiver.fits_of_racked placed nofun (free nofun), (Receiver.hired_of_racked placed).trans unhired.symm⟩

end registry

/-! ### Returns and write-offs keep the law (R118, R122) -/

section back
variable {s : State} {h : Hire} {n i : Nat} (law : s.LinesHold)
include law

/-- A receiver with an OUT line is out on the line's hire. -/
theorem State.LinesHold.hireOf_of_line (found : s.hire h.number = some h) (line : h.outLine n = some i) :
    s.hireOf n = some h.number := by
  refine law.hireOf_of_outs ?_
  obtain ⟨l, at_i, here, out⟩ := Hire.outLine_some line
  rw [State.outs_of_some found]
  exact (Hire.outFor_pos.mpr ⟨l, List.mem_of_getElem? at_i, here, out⟩).ne'

/-- The record of a receiver that is out on a hire is ON_HIRE, and not marked. -/
theorem State.LinesHold.out_of_hireOf {k : Nat} {r : Receiver} (named : s.hireOf n = some k) (found : s.receiver n = some r) :
    r.state = .onHire ∧ r.hire = some k ∧ r.mark = false := by
  rw [State.hireOf_of_some found, Receiver.hired_eq_some] at named
  obtain ⟨state, hire⟩ := named
  exact ⟨state, hire, Receiver.mark_of_not_racked (law.fits n r found) (by rw [state]; rfl)⟩

/-- Under the law the return of an ON_HIRE receiver resolves a line (R112, R118). -/
theorem State.LinesHold.lineOf {r : Receiver} (found : s.receiver n = some r) (out : r.state = .onHire) :
    ∃ h i, s.lineOf r = some (h, i) := by
  obtain ⟨-, -, named, -⟩ := law.fits n r found
  obtain ⟨k, hire⟩ := Option.ne_none_iff_exists'.mp (named out)
  have one := law.outs k n
  rw [State.hireOf_of_some found, if_pos (Receiver.hired_eq_some.mpr ⟨out, hire⟩)] at one
  cases holds : s.hire k with
  | none =>
    rw [State.outs, holds] at one
    cases one
  | some h =>
    rw [State.outs_of_some holds] at one
    obtain ⟨l, mem, here, state⟩ := Hire.outFor_pos.mp (one ▸ Nat.one_pos)
    obtain ⟨i, index⟩ : ∃ i, h.outLine r.number = some i := by
      rw [← Option.isSome_iff_exists, Hire.outLine, List.findIdx?_isSome, List.any_eq_true]
      exact ⟨l, mem, by simp [here, state, s.receiver_number found]⟩
    exact ⟨h, i, by simp [State.lineOf, hire, holds, index]⟩

/-- The record of hire `h` with a line given up, and its receiver back or written off. -/
theorem State.LinesHold.of_line {t : State} {f : Line → Line} {g : Hire → Hire} {x : Receiver → Receiver}
    (found : s.hire h.number = some h) (line : h.outLine n = some i) (hf : ∀ l, (f l).state ≠ .out)
    (hg : ∀ y, (g y).number = y.number ∧ (g y).lines = (y.modifyLine i f).lines)
    (hires : t.hires = (s.modifyHire h.number g).hires) (numbers : t.numbers = s.numbers)
    (receiver : t.receiver = Function.update s.receiver n ((s.receiver n).map x))
    (hx : ∀ r, r.state = .onHire → r.mark = false → (x r).fits ∧ (x r).state ≠ .onHire) : t.LinesHold := by
  have named := law.hireOf_of_line found line
  refine law.of_back named numbers receiver (fun r present _ => ?_) fun j m => ?_
  · obtain ⟨state, -, unmarked⟩ := law.out_of_hireOf named present
    obtain ⟨fits, other⟩ := hx r state unmarked
    exact ⟨fits, Receiver.hired_of_ne other⟩
  · have given := Hire.modifyLine_outFor line hf m
    have same : (g h).outFor m = (h.modifyLine i f).outFor m := by rw [Hire.outFor, Hire.outFor, (hg h).2]
    rw [State.outs_modifyHire found (fun y => (hg y).1) hires]
    by_cases mine : j = h.number
    · rw [if_pos mine, mine, State.outs_of_some found, same, ← given]
      simp only [true_and]
    · rw [if_neg mine, if_neg fun both => mine both.1, Nat.add_zero]

theorem State.LinesHold.returnLine (found : s.hire h.number = some h) (line : h.outLine n = some i) :
    (s.returnLine h i n).LinesHold := by
  refine law.of_line found line (f := fun l => l.giveBack s.session.clock (s.presetOutage h.preset))
    (g := Hire.giveBack i s.session.clock s.session.valid (s.presetOutage h.preset)) (x := Receiver.unracked) (fun _ => nofun)
    (fun _ => ⟨rfl, rfl⟩) (s.returnLine_hires h i n) ?_ ?_ fun r _ unmarked => ?_
  · rw [State.numbers_congr (s.returnLine_registry h i n), State.unrackReceiver_numbers]
  · rw [State.receiver_congr (s.returnLine_registry h i n), State.unrackReceiver_receiver]
  · exact ⟨Receiver.fits_of_unracked rfl unmarked rfl rfl, nofun⟩

theorem State.LinesHold.writeOffLine (found : s.hire h.number = some h) (line : h.outLine n = some i) :
    (s.writeOffLine h i n).LinesHold := by
  have registry : (s.writeOffLine h i n).registry = ((s.modifyHire h.number fun y =>
      y.modifyLine i fun l => { l with state := .lost }).loseReceiver n h.number).registry := State.changeDemand_registry ..
  refine law.of_line found line (f := fun l => { l with state := .lost })
    (g := fun y => y.modifyLine i fun l => { l with state := .lost }) (x := Receiver.lostOn h.number) (fun _ => nofun)
    (fun _ => ⟨rfl, rfl⟩) ((State.changeDemand_hires ..).trans (State.books_hires (State.loseReceiver_books ..))) ?_ ?_
    fun r _ unmarked => ?_
  · rw [State.numbers_congr registry, State.loseReceiver_numbers]
    rfl
  · rw [State.receiver_congr registry, State.loseReceiver_receiver]
    rfl
  · exact ⟨Receiver.fits_of_lost rfl unmarked rfl rfl, nofun⟩

end back

end Sys2Proof.Machine
end

section
/-! SUPPORT. Scope, the law between receivers and hire lines under the hire commands and RACK SEATED: the close of a hire, returns,
write-offs, issues, the change of preset and TAKE SETTLEMENT. -/

namespace Sys2Proof.Machine

/-! ### What leaves every OUT line in place -/

section kept
variable {s : State} (law : s.LinesHold)
include law

/-- The record of hire `k` is changed, its OUT lines kept. -/
theorem State.LinesHold.modifyHire {t : State} {k : Nat} {f : Hire → Hire} {x : Hire} (found : s.hire k = some x)
    (number : ∀ h, (f h).number = h.number) (kept : ∀ n, (f x).outFor n = x.outFor n) (registry : t.registry = s.registry)
    (hires : t.hires = (s.modifyHire k f).hires) : t.LinesHold := by
  refine law.of_outs registry (funext fun j => funext fun n => ?_)
  rw [State.outs_modifyHire found number hires]
  split
  · next same => rw [same, State.outs_of_some found, kept]
  · rfl

variable (book : s.demandCounted)
include book

theorem State.LinesHold.closeHire {k : Nat} {h : Hire} (found : s.hire k = some h) (done : h.anyOut = false) :
    (s.closeHire h).1.LinesHold := by
  have registry := s.closeHire_registry h
  rcases State.closeHire_ledger book.sorted found with removed | ⟨a, settled⟩
  · refine law.of_outs registry (State.outs_removeHire (k := k) (fun x here => ?_) (State.ledger_hires removed))
    cases found.symm.trans here
    exact done
  · exact law.modifyHire (f := Hire.settleAt s.session.clock s.session.valid (s.settlingCount + 1) a) found (fun _ => rfl)
      (fun _ => rfl) registry (State.ledger_hires settled)

theorem State.LinesHold.closeIfDone {k : Nat} : (s.closeIfDone k).1.LinesHold := by
  unfold State.closeIfDone
  split
  · exact law
  · next h found =>
    split
    · exact law
    · next done => exact law.closeHire book found (Bool.eq_false_iff.mpr done)

theorem takeSettlement_linesHold (x : Unit) : (takeSettlement x s).state.LinesHold := by
  unfold takeSettlement
  split
  · exact law
  · next r rest _ =>
    have registry := s.takeRest_registry r rest
    rcases s.takeRest_ledger r rest with same | ⟨h, first, drawn⟩
    · exact law.of_outs registry (State.outs_congr (State.ledger_hires same))
    · obtain ⟨found, done⟩ := book.firstSettling first
      have removed : (s.removeHire h.number).outs = s.outs := State.outs_removeHire (k := h.number) (fun y here => by
        cases found.symm.trans here
        exact done) rfl
      refine law.of_outs registry (((State.outs_congr (State.ledger_hires drawn)).trans
        (State.outs_map (f := Hire.moveUp) (fun y => ?_) rfl)).trans removed)
      obtain ⟨number, -, -, lines⟩ := y.moveUp_kept
      exact ⟨number, lines⟩

omit book in
theorem State.LinesHold.checkOverdue {h : Hire} : (s.checkOverdue h).LinesHold := by
  have registry := s.checkOverdue_registry h
  rcases s.checkOverdue_cases h with ⟨-, flagged⟩ | ⟨-, same⟩
  · refine law.of_outs registry ?_
    rw [flagged, State.outs_congr (State.ledger_hires (State.notify_ledger ..))]
    refine State.outs_map (f := fun x => if x.number = h.number then { x with overdue := true } else x) (fun x => ?_) rfl
    split <;> exact ⟨rfl, rfl⟩
  · rwa [same]

omit book in
theorem changePreset_linesHold (k : Nat) (preset : Option Prog) : (changePreset k preset s).state.LinesHold := by
  unfold changePreset
  split
  · exact law
  · next h found =>
    split
    · exact law
    · split
      · exact law
      · split
        · exact law
        · exact law.modifyHire (f := Hire.moveTo preset (s.presetOutage h.preset) (s.presetOutage preset))
            ((s.hire_number found).symm ▸ found) (fun _ => rfl) (Hire.moveTo_outFor _ _ _) (s.movePreset_registry h preset)
            ((State.changeDemand_hires ..).trans (State.changeDemand_hires ..))

end kept

/-! ### Returns and write-offs -/

theorem State.implicitReturn_of_out {s : State} {r : Receiver} (out : r.state = .onHire) :
    s.implicitReturn r = ((s.returnReceiver r).1, some (s.returnReceiver r).2) := by
  unfold State.implicitReturn
  rw [out]

theorem State.implicitReturn_of_in {s : State} {r : Receiver} (out : r.state ≠ .onHire) : s.implicitReturn r = (s, none) := by
  unfold State.implicitReturn
  split
  · contradiction
  all_goals rfl

section back
variable {s : State} (law : s.LinesHold) (book : s.demandCounted)
include law book

theorem State.LinesHold.returnReceiver {n : Nat} {r : Receiver} (found : s.receiver n = some r) (out : r.state = .onHire) :
    (s.returnReceiver r).1.LinesHold := by
  obtain ⟨h, i, line⟩ := law.lineOf found out
  obtain ⟨holds, -, index⟩ := State.lineOf_some line
  rw [State.returnReceiver_of_line line]
  exact (law.returnLine holds index).closeIfDone (book.returnLine holds index)

theorem returnReceiver_linesHold (n : Nat) : (returnReceiver n s).state.LinesHold := by
  unfold returnReceiver
  split
  · exact law
  · next r found =>
    split
    · next out => exact law.returnReceiver book found out
    · next lost =>
      refine law.of_update (State.books_hires (s.unrackReceiver_books n)) (s.unrackReceiver_numbers n)
        (s.unrackReceiver_receiver n) fun q present fits => ?_
      cases found.symm.trans present
      exact ⟨Receiver.fits_unracked fits (by rw [lost]; rfl), (Receiver.hired_of_ne (by simp [lost])).symm⟩
    all_goals exact law

theorem writeOff_linesHold (k n : Nat) : (writeOff k n s).state.LinesHold := by
  unfold writeOff
  split
  · exact law
  · next h found =>
    split
    · exact law
    · split
      · exact law
      · next i line =>
        have here := (s.hire_number found).symm ▸ found
        exact (law.writeOffLine here line).closeIfDone (book.writeOffLine here line)

/-- RACK SEATED: the return, the displacement and the seating keep the law in turn (R101). -/
theorem rackSeated_linesHold (n : Nat) (k : Fin 512) (b : Nat) : (rackSeated n k b s).state.LinesHold := by
  cases found : s.receiver n with
  | none =>
    unfold rackSeated
    rw [found]
    exact law
  | some r =>
    have returned : (s.implicitReturn r).1.LinesHold ∧ ∃ q, (s.implicitReturn r).1.receiver n = some q ∧ q.state ≠ .onHire ∧
        (r.state = .withdrawn → q.state = .withdrawn) ∧ (r.state ≠ .lost → q.hire = none) := by
      by_cases out : r.state = .onHire
      · rw [State.implicitReturn_of_out out]
        refine ⟨law.returnReceiver book found out, r.unracked, ?_, nofun, fun state => ?_, fun _ => rfl⟩
        · rw [State.receiver_congr (s.returnReceiver_registry r), s.receiver_number found, State.unrackReceiver_receiver,
            Function.update_self, found]
          rfl
        · rw [out] at state
          cases state
      · rw [State.implicitReturn_of_in out]
        exact ⟨law, r, found, out, id, Receiver.hire_of_fits (law.fits n r found) out⟩
    obtain ⟨law, q, present, out, withdrawn, free⟩ := returned
    rw [rackSeated_of_some found rfl rfl]
    exact law.displace.seatAndPlace ((State.displace_receiver ..).trans present) out withdrawn free

end back

/-! ### Issues (R116, R117) -/

/-- A READY receiver is out on no hire, and fits once issued. -/
theorem Receiver.issued_of_ready {r : Receiver} (ready : r.state = .ready) (k : Nat) :
    r.hired = none ∧ (r.issued k).fits ∧ (r.issued k).hired = some k :=
  ⟨Receiver.hired_of_ne (by simp [ready]), Receiver.fits_of_onHire rfl rfl rfl, rfl⟩

/-- A READY receiver takes a new OUT line of hire `h` (R117). -/
theorem State.LinesHold.addLine {s : State} (law : s.LinesHold) {h : Hire} {n : Nat} {r : Receiver}
    (found : s.hire h.number = some h) (present : s.receiver n = some r) (ready : r.state = .ready) :
    (s.addLine h n).LinesHold := by
  obtain ⟨unhired, fits, hired⟩ := Receiver.issued_of_ready ready h.number
  have registry : (s.addLine h n).registry = ((s.modifyHire h.number
      (Hire.withLine (s.presetOutage h.preset) n)).issueReceiver n h.number).registry := State.changeDemand_registry ..
  have hires : (s.addLine h n).hires = (s.modifyHire h.number (Hire.withLine (s.presetOutage h.preset) n)).hires :=
    (State.changeDemand_hires ..).trans (State.books_hires (State.issueReceiver_books ..))
  refine law.of_issue (k := h.number) (f := Receiver.issued h.number) ((State.hireOf_of_some present).trans unhired) ?_
    (Option.isSome_iff_exists.mpr ⟨r, present⟩) ?_ (fun q same _ => ?_) fun j m => ?_
  · rw [State.numbers_congr registry, State.issueReceiver_numbers]
    rfl
  · rw [State.receiver_congr registry, State.issueReceiver_receiver]
    rfl
  · cases present.symm.trans same
    exact ⟨fits, hired⟩
  · rw [State.outs_modifyHire (f := Hire.withLine (s.presetOutage h.preset) n) found (fun _ => rfl) hires]
    by_cases mine : j = h.number
    · rw [if_pos mine, mine, State.outs_of_some found, Hire.withLine_outFor]
      simp only [true_and]
    · rw [if_neg mine, if_neg fun both => mine both.1, Nat.add_zero]

theorem addReceiver_linesHold {s : State} (law : s.LinesHold) (k n : Nat) : (addReceiver k n s).state.LinesHold := by
  unfold addReceiver
  split
  · exact law
  · next h found =>
    split
    · exact law
    · split
      · exact law
      · split
        · exact law
        · next r present =>
          split
          · exact law
          · next ready => exact law.addLine ((s.hire_number found).symm ▸ found) present (not_not.mp ready)

/-- R115 step 6 passes when every receiver of the list is READY and none is named twice. -/
theorem State.checkReceivers_eq_none {s : State} {earlier l : List Nat} (h : s.checkReceivers earlier l = none) :
    (∀ n ∈ l, ∃ r, s.receiver n = some r ∧ r.state = .ready) ∧ l.Nodup ∧ ∀ n ∈ l, n ∉ earlier := by
  induction l generalizing earlier with
  | nil => exact ⟨nofun, List.nodup_nil, nofun⟩
  | cons n rest ih =>
    unfold State.checkReceivers at h
    dsimp only at h
    split at h
    · cases h
    · next r found =>
      split at h
      · cases h
      · next ready =>
        split at h
        · cases h
        · next new =>
          obtain ⟨all, distinct, apart⟩ := ih h
          simp only [List.mem_append, List.mem_singleton, not_or] at apart
          refine ⟨?_, List.nodup_cons.mpr ⟨fun mem => (apart n mem).2 rfl, distinct⟩, ?_⟩
          · rintro m (_ | ⟨_, mem⟩)
            · exact ⟨r, found, not_not.mp ready⟩
            · exact all m mem
          · rintro m (_ | ⟨_, mem⟩)
            · exact new
            · exact (apart m mem).1

/-- The records after the receivers of a list, none named twice, are issued (R116). -/
theorem State.issueReceivers_receiver {l : List Nat} (distinct : l.Nodup) (k : Nat) (s : State) (m : Nat) :
    (l.foldl (fun u n => u.issueReceiver n k) s).receiver m =
      if m ∈ l then (s.receiver m).map (Receiver.issued k) else s.receiver m := by
  induction l generalizing s with
  | nil => rfl
  | cons n rest ih =>
    obtain ⟨new, distinct⟩ := List.nodup_cons.mp distinct
    rw [List.foldl_cons, ih distinct, State.issueReceiver_receiver, Function.update_apply]
    simp only [List.mem_cons]
    by_cases first : m = n
    · rw [if_pos first, if_neg (first ▸ new), if_pos (.inl first), first]
    · simp only [first, if_false, false_or]

theorem State.issueReceivers_numbers (l : List Nat) (k : Nat) (s : State) :
    (l.foldl (fun u n => u.issueReceiver n k) s).numbers = s.numbers := by
  induction l generalizing s with
  | nil => rfl
  | cons n rest ih => exact (ih _).trans (s.issueReceiver_numbers n k)

/-- The new hire holds the lines of its receivers, which are READY and named once, under a number of its own (R115, R116). -/
theorem State.LinesHold.openHire {s : State} (law : s.LinesHold) {k : Nat} {a : OpenArgs}
    (fresh : ∀ h ∈ s.hires.records, h.number ≠ k) (checked : s.checkReceivers [] a.receivers = none) :
    (s.openHire k a).LinesHold := by
  obtain ⟨ready, distinct, -⟩ := State.checkReceivers_eq_none checked
  have registry : (s.openHire k a).registry = (a.receivers.foldl (fun u n => u.issueReceiver n k)
      ((s.setHireCounter (nextHireNumber k)).setHires (insertAsc (·.number) (s.newHire k a) s.hires.records))).registry :=
    State.changeDemand_registry ..
  have hires : (s.openHire k a).hires = ⟨insertAsc (·.number) (s.newHire k a) s.hires.records, nextHireNumber k⟩ :=
    (State.changeDemand_hires ..).trans (State.books_hires (State.foldl_books (fun u n => u.issueReceiver_books n k) _ _))
  refine law.of_open (l := a.receivers) (f := Receiver.issued k) (k := k) ?_ ?_ (fun m => ?_) (fun m listed => ?_) fun j m => ?_
  · exact List.find?_eq_none.mpr fun h mem => by simpa using fresh h mem
  · rw [State.numbers_congr registry, State.issueReceivers_numbers]
    rfl
  · rw [State.receiver_congr registry, State.issueReceivers_receiver distinct]
    rfl
  · obtain ⟨r, found, state⟩ := ready m listed
    exact ⟨r, found, Receiver.issued_of_ready state k⟩
  · have found : (s.openHire k a).hire j = if j = k then some (s.newHire k a) else s.hire j := by
      unfold State.hire
      rw [hires]
      exact find?_insertAsc (key := Hire.number) (a := s.newHire k a) fresh j
    rw [State.outs, found]
    by_cases mine : j = k
    · rw [if_pos mine, if_pos mine]
      refine (newLines_outFor (s.presetOutage a.preset) a.receivers m).trans ?_
      split
      · next listed => exact List.count_eq_one_of_mem distinct listed
      · next absent => exact List.count_eq_zero_of_not_mem absent
    · rw [if_neg mine, if_neg mine]
      rfl

theorem openHire_linesHold {s : State} (law : s.LinesHold) (book : s.demandCounted) (a : OpenArgs) :
    (openHire a s).state.LinesHold := by
  obtain ⟨-, -, ⟨lo, hi⟩, -, -⟩ := book
  unfold openHire
  split
  · exact law
  · split
    · exact law
    · next room =>
      split
      · exact law
      · split
        · exact law
        · split
          · exact law
          · next checked => exact law.openHire (freeHireNumber_free (by omega) lo hi) checked

end Sys2Proof.Machine
end

section
/-! SUPPORT. Scope, every event and every step: the laws of the racks, the demand counts and the hire lines pass through a command's
row, through the supplies and the start-ups (R186 to R189), and through each event (`exec_keepsLaws`, `step_keepsLaws`). -/

namespace Sys2Proof.Machine

/-! ### The three laws pass -/

/-- The three laws pass from `s` to `t`; that of the hire lines leans on that of the demand counts. -/
structure State.KeepsLaws (s t : State) : Prop where
  racks : s.rackMapAgrees → t.rackMapAgrees
  book : s.demandCounted → t.demandCounted
  lines : s.demandCounted → s.LinesHold → t.LinesHold

section rules
variable {s t u : State}

theorem State.KeepsLaws.refl (s : State) : s.KeepsLaws s := ⟨id, id, fun _ => id⟩

theorem State.KeepsLaws.trans (h : s.KeepsLaws t) (k : t.KeepsLaws u) : s.KeepsLaws u :=
  ⟨k.racks ∘ h.racks, k.book ∘ h.book, fun book lines => k.lines (h.book book) (h.lines book lines)⟩

theorem State.LinesHold.of_records (law : s.LinesHold) (hires : t.hires = s.hires)
    (receivers : t.registry.receivers = s.registry.receivers) : t.LinesHold :=
  law.of_map (f := id) hires (by rw [receivers, List.map_id]) (fun _ => rfl) fun _ fits => ⟨fits, rfl⟩

theorem State.KeepsLaws.of_ledger (h : t.ledger = s.ledger) : s.KeepsLaws t :=
  ⟨State.rackMapAgrees_congr h, State.demandCounted_congr h,
    fun _ law => law.of_records (State.ledger_hires h) (State.ledger_receivers h)⟩

theorem State.KeepsLaws.of_reports (h : s.Reports t) : s.KeepsLaws t := .of_ledger h.ledger

/-- A change of the registry alone. -/
theorem State.KeepsLaws.of_registry (racks : s.rackMapAgrees → t.rackMapAgrees) (books : t.books = s.books)
    (lines : s.LinesHold → t.LinesHold) : s.KeepsLaws t :=
  ⟨racks, fun book => book.of_books books, fun _ => lines⟩

/-- A change of the hires alone. -/
theorem State.KeepsLaws.of_hires (registry : t.registry = s.registry) (book : s.demandCounted → t.demandCounted)
    (lines : s.demandCounted → s.LinesHold → t.LinesHold) : s.KeepsLaws t :=
  ⟨State.rackMapAgrees_of_registry registry, book, lines⟩

theorem State.foldl_keepsLaws {α : Type} {f : State → α → State} (hf : ∀ (u : State) a, u.KeepsLaws (f u a)) (l : List α)
    (s : State) : s.KeepsLaws (l.foldl f s) := by
  induction l generalizing s with
  | nil => exact .refl s
  | cons a rest ih => exact (hf s a).trans (ih _)

/-- The laws pass through a command's row when they pass through its body. -/
theorem serve_keepsLaws {α : Type} {p : Port} {code : Byte} {params : List Byte} {parsed : Option α} {f : α → State → Reply}
    (h : (.next (s.serve p code params (withParams parsed f)) : Host.Outcome State Fault Refusal) = .next t)
    (hf : ∀ a (u : State), u.KeepsLaws (f a u).state) : s.KeepsLaws t := by
  cases h
  have body (u : State) : u.KeepsLaws (withParams parsed f u).state := by
    cases parsed with
    | none => exact .refl u
    | some a => exact hf a u
  rcases s.serve_cases p code params (withParams parsed f) with quiet | ⟨u, taken, served⟩
  · exact .of_reports quiet
  · rw [served]
    exact ((State.KeepsLaws.of_reports taken).trans (body u)).trans (.of_reports (State.placeAnswer_reports ..))

theorem serve_keepsLaws_of_ledger {α : Type} {p : Port} {code : Byte} {params : List Byte} {parsed : Option α}
    {f : α → State → Reply}
    (h : (.next (s.serve p code params (withParams parsed f)) : Host.Outcome State Fault Refusal) = .next t)
    (hf : ∀ a u, (f a u).state.ledger = u.ledger) : s.KeepsLaws t :=
  serve_keepsLaws h fun a u => .of_ledger (hf a u)

end rules

/-! ### The supplies and the start-ups (R186 to R189) -/

section starting
variable {s : State}

/-- While a start-up runs the demand counts may stand at any value (R129). -/
theorem State.demandCounted.of_starting {t : State} (law : s.demandCounted) (hires : t.hires = s.hires)
    (starting : t.startup ≠ .done) : t.demandCounted := law.of_hires hires fun done => absurd done starting

theorem State.startup_keepsLaws (s : State) {x : Startup} (starting : x ≠ .done) : s.KeepsLaws { s with startup := x } :=
  ⟨id, fun book => book.of_starting rfl starting, fun _ law => law.of_records rfl rfl⟩

/-- The volatile reset clears the marks and the demand counts; the retained records stand (R186, R188). -/
theorem State.volatileReset_keepsLaws (starting : s.startup ≠ .done) : s.KeepsLaws s.volatileReset where
  racks law := law.of_map (f := fun r => { r with mark := false }) (fun _ => ⟨rfl, rfl⟩) rfl rfl
  book law := law.of_starting rfl starting
  lines _ law := law.remark (mark := fun _ => false) rfl rfl fun _ => (nomatch ·)

/-- After a cold start no receiver and no hire is left (R187). -/
theorem State.coldStart_keepsLaws (starting : s.startup ≠ .done) : s.KeepsLaws s.coldStart where
  racks _ := by
    refine ⟨List.Pairwise.nil, fun k n => ?_⟩
    show (Table.replicate 512 none).get k = some n ↔ ∃ r ∈ [], _
    simp
  book _ := by
    unfold State.demandCounted State.coldStart
    exact ⟨List.Pairwise.nil, Nat.zero_le _, ⟨le_rfl, (by decide : 1 ≤ 9999)⟩, nofun, fun done => absurd done starting⟩
  lines _ _ := ⟨List.Pairwise.nil, nofun, fun _ _ => rfl⟩

theorem State.checkOutcome_keepsLaws (starting : s.startup ≠ .done) (failed : Option Nat) :
    s.KeepsLaws (s.checkOutcome failed) := by
  unfold State.checkOutcome
  dsimp only
  split
  · exact (State.coldStart_keepsLaws starting).trans (.of_ledger (State.setClock_ledger ..))
  · exact .of_ledger rfl

theorem State.cutStartUp_keepsLaws (starting : s.startup ≠ .done) (byReset : Bool) : s.KeepsLaws (s.cutStartUp byReset) := by
  rcases s.cutStartUp_cases byReset with cut | cut <;> rw [cut]
  · exact .of_ledger rfl
  · have counted : s.KeepsLaws { s with startUpsCut := s.startUpsCut + 1 } := .of_ledger rfl
    exact counted.trans (State.checkOutcome_keepsLaws (s := { s with startUpsCut := s.startUpsCut + 1 }) starting _)

theorem State.externalReset_keepsLaws (s : State) : s.KeepsLaws s.externalReset := by
  unfold State.externalReset
  split
  · next checking =>
    have starting : s.startup ≠ .done := by simp [checking]
    refine (State.cutStartUp_keepsLaws starting true).trans (State.volatileReset_keepsLaws ?_)
    rwa [State.cutStartUp_startup]
  all_goals
    refine ((s.startup_keepsLaws (x := .external) nofun).trans (State.volatileReset_keepsLaws nofun)).trans (.of_ledger ?_)
    rfl

theorem State.complete_ledger (s : State) : s.complete.ledger = { s.ledger with startup := .done } := rfl

theorem State.recomputeDemand_ledger (s : State) : s.recomputeDemand.ledger = { s.ledger with demand := s.demandOf } := by
  have demand : (fun p => (s.recomputeDemand.program p).demand) = s.demandOf := by
    funext p
    show ((s.programs.mapIdx fun p (r : Program) => { r with demand := s.demandOf p }).get p).demand = _
    rw [Table.get_mapIdx]
  unfold State.ledger
  rw [demand]
  rfl

/-- A start-up's passes count the demand anew before it is over (R129, R186). -/
theorem State.startPasses_ledger (s : State) : s.startPasses.complete.ledger =
    ⟨.done, s.registry.receivers, s.registry.slots, s.hires, s.demandOf⟩ := by
  have passed : s.startPasses.ledger = s.recomputeDemand.ledger :=
    (State.allocationPass_ledger _).trans (State.derivationPass_ledger _)
  rw [State.complete_ledger, passed, State.recomputeDemand_ledger]
  rfl

theorem State.startPasses_keepsLaws (s : State) : s.KeepsLaws s.startPasses.complete := by
  have ledger := s.startPasses_ledger
  generalize s.startPasses.complete = u at ledger
  have receivers : u.registry.receivers = s.registry.receivers := congrArg Ledger.receivers ledger
  have slots : u.registry.slots = s.registry.slots := congrArg Ledger.slots ledger
  have hires : u.hires = s.hires := congrArg Ledger.hires ledger
  have demand (p : Prog) : (u.program p).demand = s.demandOf p := congrFun (congrArg Ledger.demand ledger) p
  refine ⟨fun law => ?_, fun law => law.of_hires hires fun _ => demand, fun _ law => law.of_records hires receivers⟩
  unfold State.rackMapAgrees
  rwa [receivers, slots]

@[simp] theorem State.raiseHeld_ledger (s : State) : s.raiseHeld.ledger = s.ledger := by
  unfold State.raiseHeld
  dsimp only
  rw [State.foldl_ledger _ fun u f => u.raiseNow_ledger _ _]
  rfl

@[simp] theorem State.raiseRetentionLost_ledger (s : State) (x : Option Nat) : (s.raiseRetentionLost x).ledger = s.ledger := by
  cases x with
  | none => rfl
  | some g => exact s.raiseNow_ledger _ _

@[simp] theorem State.started_ledger (s : State) : s.started.ledger = s.ledger := s.notify_ledger _ _ _ _ _

end starting

/-! ### The events that are no commands -/

section events
variable {s t : State}

theorem powerOn_keepsLaws (h : exec .powerOn s = .next t) : s.KeepsLaws t := by
  cases h
  have begun : s.KeepsLaws { s with now := 0, powered := true, startup := .checking, checkSince := 0 } :=
    (s.startup_keepsLaws (x := .checking) nofun).trans (.of_ledger rfl)
  exact (begun.trans (State.volatileReset_keepsLaws nofun)).trans (.of_ledger rfl)

theorem mainPowerLoss_keepsLaws (h : exec .mainPowerLoss s = .next t) : s.KeepsLaws t := by
  cases h
  dsimp only
  split
  · next checking =>
    simp only [Bool.and_eq_true, beq_iff_eq] at checking
    exact (State.cutStartUp_keepsLaws (by simp [checking.2]) false).trans (.of_ledger rfl)
  · exact .of_ledger rfl

theorem startupCheckComplete_keepsLaws (h : exec .startupCheckComplete s = .next t) : s.KeepsLaws t := by
  cases h
  split
  · next checking =>
    simp only [Bool.and_eq_true, beq_iff_eq] at checking
    have outcome := State.checkOutcome_keepsLaws (s := s) (by simp [checking.2]) s.retention.failedGroup
    exact (outcome.trans (State.startPasses_keepsLaws _)).trans (.of_ledger (by simp))
  · exact .refl s

theorem externalReset_keepsLaws (h : exec .externalReset s = .next t) : s.KeepsLaws t := by
  cases h
  split
  · exact .refl s
  · split
    · exact s.externalReset_keepsLaws.trans (.of_ledger rfl)
    · exact .of_ledger rfl

theorem resetRelease_keepsLaws (h : exec .resetRelease s = .next t) : s.KeepsLaws t := by
  cases h
  have released : s.KeepsLaws (State.readLines { s with resetAsserted := false }) := .of_ledger rfl
  have run (u : State) : u.KeepsLaws (u.startPasses.complete.raiseHeld).started :=
    u.startPasses_keepsLaws.trans (.of_ledger (by simp))
  split
  · dsimp only
    split
    · split
      · exact .of_ledger rfl
      · exact released.trans (run _)
      · exact released.trans (run _)
    · exact .of_ledger rfl
  · exact .refl s

/-- A tick changes the hires by the overdue check alone (R130, R154). -/
theorem tick_keepsLaws (h : exec .tick s = .next t) : s.KeepsLaws t := by
  cases h
  split
  · exact .refl s
  · exact .refl s
  · exact .of_ledger s.clockTick_ledger
  · refine (State.KeepsLaws.of_ledger (t := s.clockTick.boothTick.outageTick) (by simp)).trans ?_
    exact State.foldl_keepsLaws (fun u h => .of_hires (u.checkOverdue_registry h) (fun law => law.checkOverdue)
      fun _ law => law.checkOverdue) _ _

theorem stocktakeExpiry_keepsLaws (h : exec .stocktakeExpiry s = .next t) : s.KeepsLaws t := by
  cases h
  dsimp only
  split
  · have cleared : s.KeepsLaws s.clearMarks :=
      .of_registry (fun law => law.of_map (f := fun r => { r with mark := false }) (fun _ => ⟨rfl, rfl⟩) rfl rfl) rfl
        fun law => law.clearMarks
    exact cleared.trans (.of_ledger ((State.notify_ledger ..).trans (State.setStocktake_ledger ..)))
  · exact .refl s

theorem debounceExpiry_ledger (h : exec .debounceExpiry s = .next t) : t.ledger = s.ledger := by
  cases h
  split
  · dsimp only
    split <;> simp
  · rfl

theorem tickWatchExpiry_ledger (h : exec .tickWatchExpiry s = .next t) : t.ledger = s.ledger := by
  cases h
  split
  · exact State.raiseFault_ledger _ _ _
  · rfl

theorem healthLineChange_ledger {lines : Fin 8} (h : exec (.healthLineChange lines) s = .next t) : t.ledger = s.ledger := by
  cases h
  split
  · rfl
  · split <;> rfl

theorem handoverExpiry_ledger {b : Fin 24} (h : exec (.handoverExpiry b) s = .next t) : t.ledger = s.ledger := by
  cases h
  split
  · split <;> simp
  · rfl

theorem readyAssert_ledger (h : exec .readyAssert s = .next t) : t.ledger = s.ledger := by
  cases h
  split
  · simp
  · rfl

theorem readyDeassert_ledger (h : exec .readyDeassert s = .next t) : t.ledger = s.ledger := by
  cases h
  split <;> rfl

theorem sendOpportunity_ledger (h : exec .sendOpportunity s = .next t) : t.ledger = s.ledger := by
  cases h
  split <;> simp

theorem transmissionComplete_ledger (h : exec .transmissionComplete s = .next t) : t.ledger = s.ledger := by
  cases h
  split <;> simp

theorem stallWatchExpiry_ledger (h : exec .stallWatchExpiry s = .next t) : t.ledger = s.ledger := by
  cases h
  split
  · exact State.raiseFault_ledger _ _ _
  · rfl

theorem vbakFailure_ledger (h : exec .vbakFailure s = .next t) : t.ledger = s.ledger := by
  cases h
  split <;> rfl

theorem requestTransaction_ledger {p : Port} {frame : List Byte} (h : exec (.requestTransaction p frame) s = .next t) :
    t.ledger = s.ledger := by
  cases h
  split
  · split
    · exact (s.shiftOut_reports p _).ledger
    · exact (s.takeFrame_reports p _).ledger
  · rfl

theorem fetchAnswer_ledger {p : Port} (h : exec (.fetchAnswer p) s = .next t) : t.ledger = s.ledger := by
  cases h
  split
  · split
    · exact (((s.shiftOut_reports p _).trans (State.setPort_reports _ p _)).trans (State.takeSelfReset_reports _ p)).ledger
    · exact (s.shiftOut_reports p _).ledger
  · rfl

theorem statusOnly_ledger {p : Port} (h : exec (.statusOnly p) s = .next t) : t.ledger = s.ledger := by
  cases h
  split
  · exact (s.shiftOut_reports p _).ledger
  · rfl

theorem undefinedTransactionByte_ledger {p : Port} {b : Byte} (h : exec (.undefinedTransactionByte p b) s = .next t) :
    t.ledger = s.ledger := by
  cases h
  split
  · exact (s.shiftOut_reports p _).ledger
  · rfl

theorem unknownCommand_keepsLaws {p : Port} {code : Byte} {params : List Byte}
    (h : exec (.unknownCommand p code params) s = .next t) : s.KeepsLaws t := by
  cases h
  split
  · exact serve_keepsLaws_of_ledger (parsed := some ()) (f := fun _ u => u.refuse .unknownCommand) rfl fun _ _ => rfl
  · exact .refl s

end events

/-! ### The commands of the registry and the hire table -/

section commands
variable (u : State)

theorem openHire_keepsLaws (a : OpenArgs) : u.KeepsLaws (openHire a u).state :=
  ⟨fun law => openHire_rackMapAgrees law a, fun law => openHire_demandCounted law a,
    fun book law => openHire_linesHold law book a⟩

theorem addReceiver_keepsLaws (k n : Nat) : u.KeepsLaws (addReceiver k n u).state :=
  ⟨fun law => addReceiver_rackMapAgrees law k n, fun law => addReceiver_demandCounted law k n,
    fun _ law => addReceiver_linesHold law k n⟩

theorem returnReceiver_keepsLaws (n : Nat) : u.KeepsLaws (returnReceiver n u).state :=
  ⟨fun law => returnReceiver_rackMapAgrees law n, fun law => returnReceiver_demandCounted law n,
    fun book law => returnReceiver_linesHold law book n⟩

theorem writeOff_keepsLaws (k n : Nat) : u.KeepsLaws (writeOff k n u).state :=
  ⟨fun law => writeOff_rackMapAgrees law k n, fun law => writeOff_demandCounted law k n,
    fun book law => writeOff_linesHold law book k n⟩

theorem changePreset_keepsLaws (k : Nat) (preset : Option Prog) : u.KeepsLaws (changePreset k preset u).state :=
  .of_hires (changePreset_registry k preset u) (fun law => changePreset_demandCounted law k preset)
    fun _ law => changePreset_linesHold law k preset

theorem takeSettlement_keepsLaws (x : Unit) : u.KeepsLaws (takeSettlement x u).state :=
  .of_hires (takeSettlement_registry x u) (fun law => takeSettlement_demandCounted law x)
    fun book law => takeSettlement_linesHold law book x

theorem rackSeated_keepsLaws (n : Nat) (k : Fin 512) (b : Nat) : u.KeepsLaws (rackSeated n k b u).state :=
  ⟨fun law => rackSeated_rackMapAgrees law n k b, fun law => rackSeated_demandCounted law n k b,
    fun book law => rackSeated_linesHold law book n k b⟩

end commands

/-- Every event keeps the laws: those that move the registry, the hires or the demand counts each by its own lemmas, and the others
because they leave the ledger. -/
theorem exec_keepsLaws (c : Instr) (s t : State) (h : exec c s = .next t) : s.KeepsLaws t := by
  have plain {α : Type} {p : Port} {code : Byte} {params : List Byte} {parsed : Option α} {f : α → State → Reply}
      (h : (.next (s.serve p code params (withParams parsed f)) : Host.Outcome State Fault Refusal) = .next t)
      (hf : ∀ a u, (f a u).state.ledger = u.ledger) : s.KeepsLaws t := serve_keepsLaws_of_ledger h hf
  cases c with
  | powerOn => exact powerOn_keepsLaws h
  | mainPowerLoss => exact mainPowerLoss_keepsLaws h
  | startupCheckComplete => exact startupCheckComplete_keepsLaws h
  | externalReset => exact externalReset_keepsLaws h
  | resetRelease => exact resetRelease_keepsLaws h
  | debounceExpiry => exact .of_ledger (debounceExpiry_ledger h)
  | tick => exact tick_keepsLaws h
  | tickWatchExpiry => exact .of_ledger (tickWatchExpiry_ledger h)
  | healthLineChange lines => exact .of_ledger (healthLineChange_ledger h)
  | handoverExpiry b => exact .of_ledger (handoverExpiry_ledger h)
  | stocktakeExpiry => exact stocktakeExpiry_keepsLaws h
  | readyAssert => exact .of_ledger (readyAssert_ledger h)
  | readyDeassert => exact .of_ledger (readyDeassert_ledger h)
  | sendOpportunity => exact .of_ledger (sendOpportunity_ledger h)
  | transmissionComplete => exact .of_ledger (transmissionComplete_ledger h)
  | stallWatchExpiry => exact .of_ledger (stallWatchExpiry_ledger h)
  | vbakFailure => exact .of_ledger (vbakFailure_ledger h)
  | requestTransaction p frame => exact .of_ledger (requestTransaction_ledger h)
  | fetchAnswer p => exact .of_ledger (fetchAnswer_ledger h)
  | statusOnly p => exact .of_ledger (statusOnly_ledger h)
  | undefinedTransactionByte p b => exact .of_ledger (undefinedTransactionByte_ledger h)
  | unknownCommand p code params => exact unknownCommand_keepsLaws h
  | openHire p params => exact serve_keepsLaws h fun a u => openHire_keepsLaws u a
  | addReceiver p params => exact serve_keepsLaws h fun a u => addReceiver_keepsLaws u a.1 a.2
  | returnReceiver p params => exact serve_keepsLaws h fun n u => returnReceiver_keepsLaws u n
  | writeOff p params => exact serve_keepsLaws h fun a u => writeOff_keepsLaws u a.1 a.2
  | changePreset p params => exact serve_keepsLaws h fun a u => changePreset_keepsLaws u a.1 a.2
  | takeSettlement p params => exact serve_keepsLaws h fun x u => takeSettlement_keepsLaws u x
  | rackSeated p params => exact serve_keepsLaws h fun a u => rackSeated_keepsLaws u a.1 a.2.1 a.2.2
  | rackBattery p params =>
    exact serve_keepsLaws h fun a u => .of_registry (fun law => rackBattery_rackMapAgrees law a.1 a.2)
      (rackBattery_books u a.1 a.2) fun law => rackBattery_linesHold law a.1 a.2
  | rackRemoved p params =>
    exact serve_keepsLaws h fun k u => .of_registry (fun law => rackRemoved_rackMapAgrees law k)
      (rackRemoved_books u k) fun law => rackRemoved_linesHold law k
  | stocktakeStart p params =>
    exact serve_keepsLaws h fun x u => .of_registry (fun law => stocktakeStart_rackMapAgrees law x)
      (stocktakeStart_books u x) fun law => stocktakeStart_linesHold law x
  | stocktakeEnd p params =>
    exact serve_keepsLaws h fun x u => .of_registry (fun law => stocktakeEnd_rackMapAgrees law x)
      (stocktakeEnd_books u x) fun law => stocktakeEnd_linesHold law x
  | setThreshold p params =>
    exact serve_keepsLaws h fun v u => .of_registry (fun law => setThreshold_rackMapAgrees law v)
      (setThreshold_books u v) fun law => setThreshold_linesHold law v
  | enrolReceiver p params =>
    exact serve_keepsLaws h fun n u => .of_registry (fun law => enrolReceiver_rackMapAgrees law n)
      (enrolReceiver_books u n) fun law => enrolReceiver_linesHold law n
  | withdrawReceiver p params =>
    exact serve_keepsLaws h fun n u => .of_registry (fun law => withdrawReceiver_rackMapAgrees law n)
      (withdrawReceiver_books u n) fun law => withdrawReceiver_linesHold law n
  | reinstateReceiver p params =>
    exact serve_keepsLaws h fun n u => .of_registry (fun law => reinstateReceiver_rackMapAgrees law n)
      (reinstateReceiver_books u n) fun law => reinstateReceiver_linesHold law n
  | deleteReceiver p params =>
    exact serve_keepsLaws h fun n u => .of_registry (fun law => deleteReceiver_rackMapAgrees law n)
      (deleteReceiver_books u n) fun law => deleteReceiver_linesHold law n
  | setProgram p params => exact plain h fun a u => setProgram_ledger u a.1 a.2
  | planRelease p params => exact plain h fun x u => planRelease_ledger u x
  | setBankBudget p params => exact plain h fun a u => setBankBudget_ledger u a.1 a.2
  | readStatus p params => exact plain h fun _ _ => rfl
  | readNotice p params => exact plain h fun x u => readNotice_ledger u _ x
  | setNoticeMask p params => exact plain h fun _ u => (u.setPort_reports p _).ledger
  | readCapability p params => exact plain h fun _ _ => rfl
  | login p params => exact plain h fun a u => login_ledger u a.1 a.2
  | logout p params => exact plain h fun d u => logout_ledger u d
  | micOn p params => exact plain h fun a u => micOn_ledger u a.1 a.2
  | micOff p params => exact plain h fun d u => micOff_ledger u d
  | cancelHandover p params => exact plain h fun b u => cancelHandover_ledger u b
  | selectSource p params => exact plain h fun a u => selectSource_ledger u a.1 a.2
  | readDesk p params => exact plain h fun _ _ => rfl
  | readBooth p params => exact plain h fun _ _ => rfl
  | readProgram p params => exact plain h fun _ _ => rfl
  | readHire p params => exact plain h fun a u => readHire_ledger u a.1 a.2
  | readReceiver p params => exact plain h fun x u => readReceiver_ledger u x
  | findBadge p params => exact plain h fun n u => findBadge_ledger u n
  | openSession p params => exact plain h fun x u => openSession_ledger u x
  | recess p params => exact plain h fun x u => recess_ledger u x
  | resume p params => exact plain h fun x u => resume_ledger u x
  | endSession p params => exact plain h fun x u => endSession_ledger u x
  | setBooth p params => exact plain h fun a u => setBooth_ledger u a
  | planHold p params => exact plain h fun x u => planHold_ledger u x
  | planAbandon p params => exact plain h fun x u => planAbandon_ledger u x
  | setTariff p params => exact plain h fun _ _ => rfl
  | setClock p params => exact plain h fun _ u => u.loadClock_ledger _
  | dayClose p params => exact plain h fun x u => dayClose_ledger u x
  | readFaults p params => exact plain h fun _ _ => rfl
  | clearFaults p params => exact plain h fun _ _ => rfl
  | readInterpreter p params => exact plain h fun x u => readInterpreter_ledger u x
  | readDaySummary p params => exact plain h fun x u => readDaySummary_ledger u x
  | resyncDistribution p params => exact plain h fun _ _ => rfl
  | portReset p params => exact plain h fun q u => portReset_ledger u q
  | readPlan p params => exact plain h fun x u => readPlan_ledger u x
  | readTariff p params => exact plain h fun _ _ => rfl

/-- Every step keeps the laws: an event by `exec_keepsLaws`, and an idle step because it changes the timebase and the queue of
commands alone (R1). -/
theorem step_keepsLaws (s t : State) (h : step s = .next t) : s.KeepsLaws t := by
  unfold step at h
  split at h
  · next c rest _ =>
    have taken : s.KeepsLaws { s with pending := rest } := .of_ledger rfl
    exact taken.trans (exec_keepsLaws c _ t h)
  · cases h
    refine .of_ledger ?_
    unfold State.idle State.countMs
    split
    · rfl
    · split
      · rfl
      · split <;> rfl

end Sys2Proof.Machine

namespace Sys2Proof.Proofs
open Sys2Proof Sys2Proof.Machine

/-- Settles O49: the law passes through each operation of the registry as receivers leave and take slots
(`State.rackMapAgrees.of_freed`, `State.rackMapAgrees.of_seated`), and so through every event (`step_keepsLaws`). -/
theorem theRackMapAgreesWithTheRecords : Obligations.TheRackMapAgreesWithTheRecords :=
  fun s t law h => (step_keepsLaws s t h).racks law

/-- Settles O54: the demand counts pass with each hire's part of them (`State.demandCounted.of_modify`), and the hire lines read as
the number of OUT lines that each hire holds for each receiver (`State.LinesHold`). -/
theorem demandCountsTheOutLines : Obligations.DemandCountsTheOutLines := by
  refine ⟨fun s t book h => (step_keepsLaws s t h).book book, fun s t book lines h => ?_⟩
  have kept := step_keepsLaws s t h
  exact (kept.lines book (.of_linesAgree book.sorted lines)).linesAgree (kept.book book).sorted

end Sys2Proof.Proofs
end

section
/-! SUPPORT. Scope, FIND BADGE and OPEN HIRE (R114 to R116, R125): their parameters as read from bytes, the checks of OPEN HIRE
down to the first receiver that fails, and the number and the place that the new record takes. -/

namespace Sys2Proof.Machine

/-! ### FIND BADGE (R125) -/

/-- The only item of a list that passes a test is the one that the test finds. -/
theorem find?_of_unique {α : Type} {test : α → Bool} {l : List α} {a : α} (mem : a ∈ l) (passes : test a = true)
    (unique : ∀ b ∈ l, test b = true → b = a) : l.find? test = some a := by
  cases found : l.find? test with
  | none => exact absurd passes (List.find?_eq_none.mp found a mem)
  | some b => rw [unique b (List.mem_of_find?_eq_some found) (List.find?_some found)]

theorem badgeParam?_bytes {badge : Nat} (h : badge < 2 ^ 24) : badgeParam? (be 3 badge) = badge? badge := by
  rw [be_three]
  show badge? (num [_, _, _]) = _
  rw [num_three h]

section badge
variable {s : State} {badge : Nat}

theorem State.badgeHire_eq_none : s.badgeHire badge = none ↔ ∀ h ∈ s.hires.records, h.badge ≠ badge := by
  simp [State.badgeHire]

/-- The only record that holds a badge is the one that the badge finds (R111). -/
theorem State.badgeHire_of_unique {h : Hire} (mem : h ∈ s.hires.records) (holds : h.badge = badge)
    (unique : ∀ g ∈ s.hires.records, g.badge = badge → g = h) : s.badgeHire badge = some h :=
  find?_of_unique mem (by simpa using holds) fun g here same => unique g here (by simpa using same)

@[simp] theorem State.taken_badgeHire (s : State) (p : Port) (c : Byte) (l : List Byte) (badge : Nat) :
    (s.taken p c l).badgeHire badge = s.badgeHire badge := by cases p <;> rfl

theorem findBadge_of_some {h : Hire} (found : s.badgeHire badge = some h) : findBadge badge s = ⟨s, .ok,
    be 2 h.number ++ be 1 (match h.state with | .opened => 1 | .settling => 2) ++ be 1 h.lines.length
      ++ be 1 (h.lines.countP fun l => l.state = .out)⟩ := by
  unfold findBadge
  rw [found, ← Hire.outCount_eq]
  rfl

theorem findBadge_of_none (absent : s.badgeHire badge = none) : findBadge badge s = ⟨s, .unknown, []⟩ := by
  unfold findBadge
  rw [absent]
  rfl

end badge

/-! ### The parameters of OPEN HIRE (R115) -/

section parameters
variable {badge deposit : Nat} {rs : List Nat} (plan : Fin 8) (preset : Option Prog)

theorem openHireParams?_bytes (lo : 1 ≤ badge) (hi : badge ≤ 999999) (hd : deposit < 2 ^ 24) (least : 1 ≤ rs.length)
    (most : rs.length ≤ 8) (range : ∀ n ∈ rs, 1 ≤ n ∧ n ≤ 65535) :
    openHireParams? (be 3 badge ++ be 1 plan.val ++ be 3 deposit ++ optProgBytes preset ++ receiverList rs) =
      some ⟨badge, plan, deposit, preset, rs⟩ := by
  have positive : 0 ∉ rs := fun mem => absurd (range 0 mem).1 (Nat.not_succ_le_zero 0)
  have receivers : wordList? (receiverList rs) = some rs :=
    wordList?_receivers (fun n mem => Nat.lt_succ_of_le (range n mem).2) (by omega)
  have index : index? 0 8 (BitVec.ofNat 8 plan.val).toNat = some plan :=
    index?_eq plan (by rw [byte_ofNat (by omega), Nat.zero_add])
  rw [be_three, be_one, be_three, List.append_assoc]
  simp only [List.cons_append, List.nil_append, openHireParams?, takeOptional_prog, num_three (show badge < 2 ^ 24 by omega),
    badge?_some lo hi, index, optProg?_prog, receivers, num_three hd]
  exact if_pos ⟨least, most, positive⟩

theorem paramsFit_openHire_bytes (least : 1 ≤ rs.length) (most : rs.length ≤ 8) : paramsFit 0x30#8
    (be 3 badge ++ be 1 plan.val ++ be 3 deposit ++ optProgBytes preset ++ receiverList rs) = true := by
  rw [List.append_assoc]
  exact optionalThen_prog preset _ _ (listFits_receivers least most (by omega))

theorem openHire_bytes_length (most : rs.length ≤ 8) :
    (be 3 badge ++ be 1 plan.val ++ be 3 deposit ++ optProgBytes preset ++ receiverList rs).length ≤ 250 := by
  cases preset <;> simp [be, optProgBytes, optBytes, receiverList] <;> omega

end parameters

/-! ### The checks of OPEN HIRE (R115) -/

section checks
variable {s : State} {a : OpenArgs}

/-- The receivers that pass are laid aside, and the check goes on with the rest (R115 step 6). -/
theorem State.checkReceivers_append (s : State) {earlier l1 l2 : List Nat} (distinct : (earlier ++ l1).Nodup)
    (ready : ∀ n ∈ l1, ∃ r, s.receiver n = some r ∧ r.state = .ready) :
    s.checkReceivers earlier (l1 ++ l2) = s.checkReceivers (earlier ++ l1) l2 := by
  induction l1 generalizing earlier with
  | nil => rw [List.append_nil, List.nil_append]
  | cons n rest ih =>
    obtain ⟨r, found, here⟩ := ready n (List.mem_cons_self ..)
    have fresh : n ∉ earlier := fun mem => (List.nodup_append.mp distinct).2.2 n mem n (List.mem_cons_self ..) rfl
    rw [List.append_cons] at distinct ⊢
    rw [List.cons_append, State.checkReceivers]
    simp only [found, here, fresh, ne_eq, not_true, if_false]
    exact ih distinct fun m mem => ready m (List.mem_cons_of_mem _ mem)

theorem State.checkReceivers_none {rs : List Nat} (distinct : rs.Nodup)
    (ready : ∀ n ∈ rs, ∃ r, s.receiver n = some r ∧ r.state = .ready) : s.checkReceivers [] rs = none := by
  have passed := s.checkReceivers_append (earlier := []) (l2 := []) distinct ready
  rwa [List.append_nil] at passed

/-- What the checks of OPEN HIRE ask before they come to the receivers (R115 steps 2 to 5). -/
structure State.Admits (s : State) (a : OpenArgs) : Prop where
  clock : s.session.valid = true
  room : s.hires.records.length < 512
  badge : s.badgeHire a.badge = none
  preset : s.presetUnconfigured a.preset = false

theorem State.presetUnconfigured_eq_false {preset : Option Prog} :
    s.presetUnconfigured preset = false ↔ ∀ p, preset = some p → (s.program p).config.configured = true := by
  cases preset <;> simp [State.presetUnconfigured]

theorem State.presetUnconfigured_some {preset : Option Prog} {p : Prog} (named : preset = some p)
    (no : (s.program p).config.configured = false) : s.presetUnconfigured preset = true := by
  subst named
  simp [State.presetUnconfigured, no]

theorem openHire_noClock (h : s.session.valid = false) : openHire a s = ⟨s, .noClock, []⟩ := if_pos (by simp [h])

section clock
variable (clock : s.session.valid = true)
include clock

theorem openHire_tableFull (full : 512 ≤ s.hires.records.length) : openHire a s = ⟨s, .tableFull, []⟩ := by
  unfold openHire
  rw [if_neg (by simp [clock]), if_pos full]
  rfl

theorem openHire_badgeActive (room : s.hires.records.length < 512) {h : Hire} (held : s.badgeHire a.badge = some h) :
    openHire a s = ⟨s, .badgeActive, be 2 h.number⟩ := by
  unfold openHire
  rw [if_neg (by simp [clock]), if_neg room.not_ge, held]

theorem openHire_notConfigured (room : s.hires.records.length < 512) (free : s.badgeHire a.badge = none)
    (no : s.presetUnconfigured a.preset = true) : openHire a s = ⟨s, .notConfigured, []⟩ := by
  unfold openHire
  rw [if_neg (by simp [clock]), if_neg room.not_ge, free]
  exact if_pos no

end clock

section admitted
variable (h : s.Admits a)
include h

theorem openHire_of_failing {r : Result} {n place : Nat} (check : s.checkReceivers [] a.receivers = some (r, n, place)) :
    openHire a s = ⟨s, r, be 2 n ++ be 1 place⟩ := by
  unfold openHire
  rw [if_neg (by simp [h.clock]), if_neg h.room.not_ge, h.badge]
  dsimp only
  rw [if_neg (by simp [h.preset]), check]

theorem openHire_of_passing {number : Nat} (check : s.checkReceivers [] a.receivers = none)
    (free : freeHireNumber s.hires.records 513 s.hires.counter = number) : openHire a s =
      ⟨s.openHire number a, if maxDeposit < a.deposit then .okClamped else .ok, s.openAnswer (s.newHire number a)⟩ := by
  unfold openHire
  rw [if_neg (by simp [h.clock]), if_neg h.room.not_ge, h.badge]
  dsimp only
  rw [if_neg (by simp [h.preset]), check, free]

end admitted

/-- The first receiver of the list that fails, after those that pass (R115 step 6). -/
theorem openHire_of_receiver (h : s.Admits a) {l1 l2 : List Nat} {n : Nat} (split : a.receivers = l1 ++ n :: l2)
    (distinct : l1.Nodup) (ready : ∀ m ∈ l1, ∃ r, s.receiver m = some r ∧ r.state = .ready) {x : Result}
    (fails : s.checkReceivers l1 (n :: l2) = some (x, n, l1.length + 1)) :
    openHire a s = ⟨s, x, be 2 n ++ be 1 (l1.length + 1)⟩ := by
  refine openHire_of_failing h ?_
  rw [split, s.checkReceivers_append (earlier := []) distinct ready]
  exact fails

end checks

/-! ### The record that OPEN HIRE creates (R114, R116) -/

/-- The number found is the first of the tries that no record holds, or the tries are all held (R114). -/
theorem freeHireNumber_first (l : List Hire) (fuel n : Nat) : ∃ tries, freeHireNumber l fuel n = nextHireNumber^[tries] n ∧
    ∀ j < tries, ∃ h ∈ l, h.number = nextHireNumber^[j] n := by
  induction fuel generalizing n with
  | zero => exact ⟨0, rfl, fun j below => absurd below (Nat.not_lt_zero j)⟩
  | succ fuel ih =>
    unfold freeHireNumber
    split
    · next taken =>
      simp only [List.any_eq_true, beq_iff_eq] at taken
      obtain ⟨tries, found, held⟩ := ih (nextHireNumber n)
      refine ⟨tries + 1, found, fun j below => ?_⟩
      cases j with
      | zero => exact taken
      | succ j => exact held j (by omega)
    · exact ⟨0, rfl, fun j below => absurd below (Nat.not_lt_zero j)⟩

theorem nextHireNumber_eq {n : Nat} (h : n ≤ 9999) : nextHireNumber n = if n = 9999 then 1 else n + 1 := by
  unfold nextHireNumber
  split_ifs <;> omega

theorem State.issueReceiver_apart (n k : Nat) : State.Apart fun s => s.issueReceiver n k :=
  (State.clearMark_apart n).modifyReceiver

/-- The writes of OPEN HIRE (R116): the number counter, the hire records, the receivers issued to hire `number`, the preset's
demand and the day counters. -/
def State.enterHire (s : State) (number counter : Nat) (records : List Hire) (preset : Option Prog) (rs : List Nat) : State :=
  ((rs.foldl (fun u n => u.issueReceiver n number) ((s.setHireCounter counter).setHires records)).changeDemand preset
    (· + rs.length)).modifyCounters fun c => c.addOpened rs.length

theorem State.enterHire_apart (number counter : Nat) (records : List Hire) (preset : Option Prog) (rs : List Nat) :
    State.Apart fun s => s.enterHire number counter records preset rs :=
  (State.modifyCounters_apart _).comp <| (State.changeDemand_apart preset _).comp <|
    (State.foldl_apart _ (fun n => State.issueReceiver_apart n number) rs).comp <|
      (State.setHires_apart records).comp (State.setHireCounter_apart counter)

theorem State.openAnswer_newHire (s : State) (number : Nat) (a : OpenArgs) : s.openAnswer (s.newHire number a) =
    be 2 number ++ be 3 (min 1000000 a.deposit) ++ be 1 a.receivers.length ++ be 4 s.session.clock.abs
      ++ s.presetBytes a.preset := by
  have lines : (s.newHire number a).lines.length = a.receivers.length := List.length_map _
  rw [State.openAnswer, lines]
  rfl

theorem openResult_eq (deposit : Nat) : (if maxDeposit < deposit then Result.okClamped else .ok) =
    if deposit ≤ 1000000 then .ok else .okClamped := by
  simp only [maxDeposit, ← Nat.not_le, ite_not]

/-- The new record stands between the records below its number and those above it (R113, R116). -/
theorem State.openHire_between {s : State} {number : Nat} {a : OpenArgs} {l1 l2 : List Hire} (most : number ≤ 9999)
    (split : s.hires.records = l1 ++ l2) (below : ∀ h ∈ l1, h.number < number) (above : ∀ h ∈ l2, number < h.number) :
    s.openHire number a = s.enterHire number (if number = 9999 then 1 else number + 1) (l1 ++ s.newHire number a :: l2)
      a.preset a.receivers := by
  rw [← nextHireNumber_eq most, ← insertAsc_between (key := Hire.number) (a := s.newHire number a) below above, ← split]
  rfl

end Sys2Proof.Machine

namespace Sys2Proof.Proofs
open Sys2Proof Sys2Proof.Machine

/-- Settles O24: by what the badge finds among the records (`State.badgeHire_of_unique`). -/
theorem findBadgeGivesTheHire : Obligations.FindBadgeGivesTheHire := by
  refine fun s p badge ready small => ⟨fun out => ?_, fun lo hi => ⟨fun h mem holds unique => ?_, fun absent => ?_⟩⟩
  · exact exec_of_malformed ready (by simp [be]) (by cases p <;> rfl) ((badgeParam?_bytes small).trans (badge?_none out))
  all_goals
    refine exec_of_plain ready (by simp [be]) (by cases p <;> rfl) rfl ((badgeParam?_bytes small).trans (badge?_some lo hi)) ?_
  · exact findBadge_of_some ((State.taken_badgeHire ..).trans (State.badgeHire_of_unique mem holds unique))
  · exact findBadge_of_none ((State.taken_badgeHire ..).trans (State.badgeHire_eq_none.mpr absent))

/-- Settles O51: each check by the body's own equation, the receivers by those that pass before the first that fails
(`State.checkReceivers_append`), and the new record by the first free number (`freeHireNumber_first`) and its place
(`insertAsc_between`). -/
theorem openHireCreatesTheRecord : Obligations.OpenHireCreatesTheRecord := by
  refine ⟨fun s => ⟨rfl, fun p => rfl⟩,
    fun s badge plan deposit preset rs params ready lo hi hd least most range bytes => ?_⟩
  have read : openHireParams? params = some ⟨badge, plan, deposit, preset, rs⟩ :=
    bytes ▸ openHireParams?_bytes plan preset lo hi hd least most range
  have short : params.length ≤ 250 := bytes ▸ openHire_bytes_length plan preset most
  have fits : paramsFit 0x30#8 params = true := bytes ▸ paramsFit_openHire_bytes plan preset least most
  have plain {r : Result} {fields : List Byte} := exec_of_plain (body := openHire) (r := r) (fields := fields) ready short
    rfl fits read
  refine ⟨fun invalid => plain (openHire_noClock (by simpa using invalid)), fun clock => ?_⟩
  have clock' : (s.taken .hire 0x30#8 params).session.valid = true := by simpa using clock
  refine ⟨fun full => plain (openHire_tableFull clock' (by simpa using full)), fun room => ?_⟩
  have room' : (s.taken .hire 0x30#8 params).hires.records.length < 512 := by simpa using room
  refine ⟨fun h held => plain (openHire_badgeActive clock' room' (by simpa using held)), fun fresh => ?_⟩
  have free : (s.taken .hire 0x30#8 params).badgeHire badge = none :=
    (State.taken_badgeHire ..).trans (State.badgeHire_eq_none.mpr fresh)
  have admits (configured : ∀ p, preset = some p → (s.program p).config.configured = true) :
      (s.taken .hire 0x30#8 params).Admits ⟨badge, plan, deposit, preset, rs⟩ :=
    ⟨clock', room', free, State.presetUnconfigured_eq_false.mpr (by simpa using configured)⟩
  refine ⟨fun p named no => plain (openHire_notConfigured clock' room' free
    (State.presetUnconfigured_some named (by simpa using no))), fun configured l1 n l2 split distinct passing => ?_,
    fun configured distinct passing low high => ?_⟩
  · have fails {x : Result} := openHire_of_receiver (admits configured) split distinct (by simpa using passing) (x := x)
    refine ⟨fun unknown => plain (fails ?_), fun r found => ⟨fun other => plain (fails ?_),
      fun here again => plain (fails ?_)⟩⟩
    · simp [State.checkReceivers, unknown]
    · simp [State.checkReceivers, found, other]
    · simp [State.checkReceivers, found, here, again]
  · obtain ⟨tries, first, held⟩ := freeHireNumber_first s.hires.records 513 s.hires.counter
    have unused := freeHireNumber_free room.le low high
    have place := nextHireNumber_iterate low high tries
    rw [first] at unused
    refine ⟨_, tries, rfl, by omega, by omega, unused, held, fun l1 l2 split below above => ?_⟩
    refine exec_of_apart (body := openHire) ready short rfl fits read (State.enterHire_apart _ _ _ preset rs) ?_
    rw [openHire_of_passing (admits configured) (State.checkReceivers_none distinct (by simpa using passing))
      (by simpa using first), State.openHire_between (by omega) (by simpa using split) below above, State.openAnswer_newHire,
      openResult_eq]
    rfl

end Sys2Proof.Proofs
end

section
/-! SUPPORT. Scope, the commands on a hire's lines (R117, R118, R120, R122, R123): their parameters as read from bytes, each check
by the record that it reads, and each change as an effect that leaves the request and answer slots apart. -/

namespace Sys2Proof.Machine

/-! ### Parameters (R169, R170) -/

theorem hire?_none {k : Nat} (h : k = 0 ∨ 9999 < k) : hire? k = none := by
  unfold hire?
  rw [if_neg (by omega)]

theorem hireReceiverParams?_bytes {k n : Nat} (klo : 1 ≤ k) (khi : k ≤ 9999) (nlo : 1 ≤ n) (nhi : n ≤ 65535) :
    hireReceiverParams? (be 2 k ++ be 2 n) = some (k, n) := by
  rw [be_two, be_two]
  simp only [List.cons_append, List.nil_append, hireReceiverParams?, num_two (show k < 65536 by omega),
    num_two (show n < 65536 by omega), hire?_some klo khi, positive?_pos nlo]

theorem hireReceiverParams?_none {k n : Nat} (hk : k < 2 ^ 16) (hn : n < 2 ^ 16) (out : k = 0 ∨ 9999 < k ∨ n = 0) :
    hireReceiverParams? (be 2 k ++ be 2 n) = none := by
  rw [be_two, be_two]
  simp only [List.cons_append, List.nil_append, hireReceiverParams?, num_two hk, num_two hn]
  rcases or_assoc.mpr out with hire | rfl
  · rw [hire?_none hire]
  · rw [positive?, if_pos rfl]
    cases hire? k <;> rfl

section preset
variable (preset : Option Prog)

theorem changePreset_bytes_length (k : Nat) : (be 2 k ++ optProgBytes preset).length ≤ 250 := by
  cases preset <;> simp [be, optProgBytes, optBytes]

theorem paramsFit_changePreset_bytes (k : Nat) : paramsFit 0x34#8 (be 2 k ++ optProgBytes preset) = true := by
  have fits := optionalThen_prog preset [] (fun left => left.isEmpty) rfl
  rwa [List.append_nil] at fits

theorem changePresetParams?_eq {k : Nat} (h : k < 2 ^ 16) :
    changePresetParams? (be 2 k ++ optProgBytes preset) = (hire? k).map fun k => (k, preset) := by
  have taken := takeOptional_prog preset []
  rw [List.append_nil] at taken
  rw [be_two]
  simp only [List.cons_append, List.nil_append, changePresetParams?, taken, num_two h, optProg?_prog]
  cases hire? k <;> rfl

end preset

theorem changePresetParams?_program {k : Nat} {v : Byte} (h : 31 < v.toNat) :
    changePresetParams? (be 2 k ++ [1#8, v]) = none := by
  have unknown : optProg? 0 (some v) = none := by
    rw [optProg?, if_pos (Nat.zero_le _), prog?, index?_none (by omega)]
    rfl
  have taken : takeOptional [1#8, v] = some (some v, []) := rfl
  rw [be_two]
  simp only [List.cons_append, List.nil_append, changePresetParams?, taken, unknown]
  cases hire? _ <;> rfl

/-! ### What a preset reads -/

section preset
variable (s : State) (p : Port) (c : Byte) (l : List Byte) (preset : Option Prog)

@[simp] theorem State.taken_presetOutage : (s.taken p c l).presetOutage preset = s.presetOutage preset := by cases p <;> rfl
@[simp] theorem State.taken_presetUnconfigured :
    (s.taken p c l).presetUnconfigured preset = s.presetUnconfigured preset := by cases p <;> rfl
@[simp] theorem State.taken_presetBytes : (s.taken p c l).presetBytes preset = s.presetBytes preset := by cases p <;> rfl

end preset

/-! ### ADD RECEIVER (R117) -/

/-- The writes of ADD RECEIVER (R117): the line, the receiver issued, the preset's demand and the day counter. -/
def State.enterLine (s : State) (k n : Nat) (base : Option (BitVec 32)) (preset : Option Prog) : State :=
  (((s.modifyHire k (Hire.withLine base n)).issueReceiver n k).changeDemand preset (· + 1)).modifyCounters
    fun c => { c with issued := satAdd32 c.issued 1 }

theorem State.enterLine_apart (k n : Nat) (base : Option (BitVec 32)) (preset : Option Prog) :
    State.Apart fun s => s.enterLine k n base preset :=
  (State.modifyCounters_apart _).comp <| (State.changeDemand_apart preset _).comp <|
    (State.issueReceiver_apart n k).comp (State.modifyHire_apart k _)

section addReceiver
variable {s : State} {k n : Nat} {h : Hire}

theorem addReceiver_noHire (absent : s.hire k = none) : addReceiver k n s = ⟨s, .unknown, []⟩ := by
  simp only [addReceiver, absent, State.refuse]

variable (found : s.hire k = some h)
include found

theorem addReceiver_settling (settling : h.state = .settling) : addReceiver k n s = ⟨s, .notActive, []⟩ := by
  simp only [addReceiver, found, settling, if_true, State.refuse]

variable (opened : h.state = .opened)
include opened

theorem addReceiver_full (full : 8 ≤ h.lines.length) : addReceiver k n s = ⟨s, .linesFull, []⟩ := by
  simp only [addReceiver, found, opened, full, reduceCtorEq, if_true, if_false, State.refuse]

variable (room : h.lines.length < 8)
include room

theorem addReceiver_noReceiver (absent : s.receiver n = none) : addReceiver k n s = ⟨s, .unknown, []⟩ := by
  simp only [addReceiver, found, opened, room.not_ge, absent, reduceCtorEq, if_false, State.refuse]

theorem addReceiver_notReady {r : Receiver} (known : s.receiver n = some r) (other : r.state ≠ .ready) :
    addReceiver k n s = ⟨s, .notReady, []⟩ := by
  simp only [addReceiver, found, opened, room.not_ge, known, other, ne_eq, not_false_eq_true, reduceCtorEq, if_true, if_false,
    State.refuse]

theorem addReceiver_ready {r : Receiver} (known : s.receiver n = some r) (ready : r.state = .ready) :
    addReceiver k n s = ⟨s.enterLine k n (s.presetOutage h.preset) h.preset, .ok,
      be 1 (h.lines.length + 1) ++ be 1 (h.lines.length + 1)⟩ := by
  simp only [addReceiver, found, opened, room.not_ge, known, ready, ne_eq, not_true, reduceCtorEq, if_false]
  rw [State.addLine, s.hire_number found]
  rfl

end addReceiver

/-! ### RETURN RECEIVER (R118, R120) -/

section returnReceiver
variable {s : State} {n : Nat} {r : Receiver}

theorem returnReceiver_unknown (absent : s.receiver n = none) : returnReceiver n s = ⟨s, .unknown, []⟩ := by
  simp only [returnReceiver, absent, State.refuse]

variable (known : s.receiver n = some r)
include known

theorem returnReceiver_of_onHire (out : r.state = .onHire) : returnReceiver n s = ⟨(s.returnReceiver r).1, .ok,
    be 2 (s.returnReceiver r).2.hire ++ be 1 (s.returnReceiver r).2.place ++ timeBytes s.session.clock
      ++ flagByte s.session.valid ++ closeBytes (s.returnReceiver r).2.way⟩ := by
  simp only [returnReceiver, known, out]

theorem returnReceiver_of_lost (lost : r.state = .lost) :
    returnReceiver n s = ⟨s.unrackReceiver n, .recovered, be 2 (r.hire.getD 0)⟩ := by
  simp only [returnReceiver, known, lost]

theorem returnReceiver_notActive (out : r.state ≠ .onHire) (lost : r.state ≠ .lost) :
    returnReceiver n s = ⟨s, .notActive, []⟩ := by
  unfold returnReceiver
  rw [known]
  dsimp only
  split
  · contradiction
  · contradiction
  all_goals rfl

end returnReceiver

theorem State.lineOf_of_outLine {s : State} {r : Receiver} {k i : Nat} {h : Hire} (named : r.hire = some k)
    (found : s.hire k = some h) (line : h.outLine r.number = some i) : s.lineOf r = some (h, i) := by
  simp only [State.lineOf, named, Option.bind_some, found, line, Option.map_some]

theorem State.closeIfDone_apart (k : Nat) : State.Apart fun s => (s.closeIfDone k).1 := fun s p c r l =>
  congrArg Prod.fst (s.closeIfDone_placeAnswer p c r l k)

/-! ### WRITE OFF (R122) -/

theorem State.loseReceiver_apart (n k : Nat) : State.Apart fun s => s.loseReceiver n k := (State.freeSlot_apart n).modifyReceiver

theorem State.writeOffLine_apart (h : Hire) (i n : Nat) : State.Apart fun s => s.writeOffLine h i n :=
  (State.modifyCounters_apart fun c => { c with writtenOff := satAdd32 c.writtenOff 1 }).comp <|
    (State.changeDemand_apart h.preset (· - 1)).comp <| (State.loseReceiver_apart n h.number).comp <|
      State.modifyHire_apart h.number fun x => x.modifyLine i fun l => { l with state := .lost }

theorem State.writeOffLine_hires (s : State) (h : Hire) (i n : Nat) : (s.writeOffLine h i n).hires =
    (s.modifyHire h.number fun x => x.modifyLine i fun l => { l with state := .lost }).hires :=
  (State.changeDemand_hires ..).trans (State.books_hires (State.loseReceiver_books ..))

theorem State.loseReceiver_settlement (s : State) (n k : Nat) : (s.loseReceiver n k).settlement = s.settlement := by
  unfold State.loseReceiver State.freeSlot
  split <;> rfl

theorem State.writeOffLine_settlement (s : State) (h : Hire) (i n : Nat) :
    (s.writeOffLine h i n).settlement = s.settlement :=
  (State.changeDemand_settlement ..).trans (State.loseReceiver_settlement ..)

/-- The way of the close after a write-off does not depend on the ports (R122). -/
theorem State.taken_writeOffLine_way (s : State) (p : Port) (c : Byte) (l : List Byte) (h : Hire) (i n k : Nat) :
    (((s.taken p c l).writeOffLine h i n).closeIfDone k).2 = ((s.writeOffLine h i n).closeIfDone k).2 := by
  have hires : ((s.taken p c l).writeOffLine h i n).hires = (s.writeOffLine h i n).hires := by
    simp only [State.writeOffLine_hires, State.modifyHire, State.setHires_hires, State.taken_hires]
  rw [State.closeIfDone_way, State.closeIfDone_way, State.hire_congr hires, State.writeOffLine_settlement,
    State.writeOffLine_settlement, State.taken_settlement]

section writeOff
variable {s : State} {k n : Nat} {h : Hire}

theorem writeOff_noHire (absent : s.hire k = none) : writeOff k n s = ⟨s, .unknown, []⟩ := by
  simp only [writeOff, absent, State.refuse]

variable (found : s.hire k = some h)
include found

theorem writeOff_settling (settling : h.state = .settling) : writeOff k n s = ⟨s, .notActive, []⟩ := by
  simp only [writeOff, found, settling, if_true, State.refuse]

variable (opened : h.state = .opened)
include opened

theorem writeOff_noLine (absent : h.outLine n = none) : writeOff k n s = ⟨s, .notActive, []⟩ := by
  simp only [writeOff, found, opened, absent, reduceCtorEq, if_false, State.refuse]

theorem writeOff_of_line {i : Nat} (line : h.outLine n = some i) : writeOff k n s =
    ⟨((s.writeOffLine h i n).closeIfDone k).1, .ok, be 1 (i + 1) ++ closeBytes ((s.writeOffLine h i n).closeIfDone k).2⟩ := by
  simp only [writeOff, found, opened, line, reduceCtorEq, if_false]

end writeOff

/-! ### CHANGE PRESET (R123) -/

/-- The writes of CHANGE PRESET (R123): hire `k`'s OUT lines and their `count` in the demand go from one preset to another. -/
def State.shiftLines (s : State) (k count : Nat) (old new : Option Prog) (was now : Option (BitVec 32)) : State :=
  ((s.modifyHire k (Hire.moveTo new was now)).changeDemand old (· - count)).changeDemand new (· + count)

theorem State.shiftLines_apart (k count : Nat) (old new : Option Prog) (was now : Option (BitVec 32)) :
    State.Apart fun s => s.shiftLines k count old new was now :=
  (State.changeDemand_apart new _).comp <| (State.changeDemand_apart old _).comp (State.modifyHire_apart k _)

section changePreset
variable {s : State} {k : Nat} {preset : Option Prog} {h : Hire}

theorem changePreset_noHire (absent : s.hire k = none) : changePreset k preset s = ⟨s, .unknown, []⟩ := by
  simp only [changePreset, absent, State.refuse]

variable (found : s.hire k = some h)
include found

theorem changePreset_settling (settling : h.state = .settling) : changePreset k preset s = ⟨s, .notActive, []⟩ := by
  simp only [changePreset, found, settling, if_true, State.refuse]

variable (opened : h.state = .opened)
include opened

theorem changePreset_notConfigured (no : s.presetUnconfigured preset = true) :
    changePreset k preset s = ⟨s, .notConfigured, []⟩ := by
  simp only [changePreset, found, opened, no, reduceCtorEq, if_true, if_false, State.refuse]

variable (configured : s.presetUnconfigured preset = false)
include configured

theorem changePreset_same (same : preset = h.preset) :
    changePreset k preset s = ⟨s, .ok, be 1 0 ++ s.presetBytes preset⟩ := by
  simp only [changePreset, found, opened, configured, reduceCtorEq, Bool.false_eq_true, if_false, if_pos same]

theorem changePreset_other (other : preset ≠ h.preset) : changePreset k preset s =
    ⟨s.shiftLines k h.outCount h.preset preset (s.presetOutage h.preset) (s.presetOutage preset), .ok,
      be 1 h.outCount ++ s.presetBytes preset⟩ := by
  simp only [changePreset, found, opened, configured, reduceCtorEq, Bool.false_eq_true, if_false, if_neg other]
  rw [State.movePreset, s.hire_number found]
  rfl

end changePreset

/-! ### The commands on a port that can take them -/

section commands
variable {s : State} {f : State → State} {r : Result} {fields : List Byte} (ready : s.canTake .hire)
include ready

section lines
variable {k n : Nat} (klo : 1 ≤ k) (khi : k ≤ 9999) (nlo : 1 ≤ n) (nhi : n ≤ 65535) (apart : State.Apart f)
include klo khi nlo nhi apart

/-- ADD RECEIVER by what its body does (R117). -/
theorem exec_addReceiver (hb : addReceiver k n (s.taken .hire 0x31#8 (be 2 k ++ be 2 n)) =
      ⟨f (s.taken .hire 0x31#8 (be 2 k ++ be 2 n)), r, fields⟩) :
    exec (.addReceiver .hire (be 2 k ++ be 2 n)) s = .next (f (s.answered .hire 0x31#8 r fields)) :=
  exec_of_apart (body := fun a : Nat × Nat => addReceiver a.1 a.2) ready (by simp [be]) rfl rfl
    (hireReceiverParams?_bytes klo khi nlo nhi) apart hb

/-- WRITE OFF by what its body does (R122). -/
theorem exec_writeOff (hb : writeOff k n (s.taken .hire 0x33#8 (be 2 k ++ be 2 n)) =
      ⟨f (s.taken .hire 0x33#8 (be 2 k ++ be 2 n)), r, fields⟩) :
    exec (.writeOff .hire (be 2 k ++ be 2 n)) s = .next (f (s.answered .hire 0x33#8 r fields)) :=
  exec_of_apart (body := fun a : Nat × Nat => writeOff a.1 a.2) ready (by simp [be]) rfl rfl
    (hireReceiverParams?_bytes klo khi nlo nhi) apart hb

end lines

/-- RETURN RECEIVER by what its body does (R120). -/
theorem exec_returnReceiver {n : Nat} (nlo : 1 ≤ n) (nhi : n ≤ 65535) (apart : State.Apart f)
    (hb : returnReceiver n (s.taken .hire 0x32#8 (be 2 n)) = ⟨f (s.taken .hire 0x32#8 (be 2 n)), r, fields⟩) :
    exec (.returnReceiver .hire (be 2 n)) s = .next (f (s.answered .hire 0x32#8 r fields)) :=
  exec_of_apart ready (by simp [be]) rfl rfl (receiverParam?_bytes nlo nhi) apart hb

/-- CHANGE PRESET by what its body does (R123). -/
theorem exec_changePreset {k : Nat} {preset : Option Prog} (klo : 1 ≤ k) (khi : k ≤ 9999) (apart : State.Apart f)
    (hb : changePreset k preset (s.taken .hire 0x34#8 (be 2 k ++ optProgBytes preset)) =
      ⟨f (s.taken .hire 0x34#8 (be 2 k ++ optProgBytes preset)), r, fields⟩) :
    exec (.changePreset .hire (be 2 k ++ optProgBytes preset)) s = .next (f (s.answered .hire 0x34#8 r fields)) := by
  have read : changePresetParams? (be 2 k ++ optProgBytes preset) = some (k, preset) := by
    rw [changePresetParams?_eq preset (by omega), hire?_some klo khi]
    rfl
  exact exec_of_apart (body := fun a : Nat × Option Prog => changePreset a.1 a.2) ready (changePreset_bytes_length preset k) rfl
    (paramsFit_changePreset_bytes preset k) read apart hb

end commands

end Sys2Proof.Machine

namespace Sys2Proof.Proofs
open Sys2Proof Sys2Proof.Machine

/-- Settles O53: each check by the body's own equation, and each change as its effect under its answer; the way of a close does
not depend on the ports (`State.returnReceiver_outcome`, `State.taken_writeOffLine_way`). -/
theorem linesAreAddedReturnedLostAndMoved : Obligations.LinesAreAddedReturnedLostAndMoved := by
  refine ⟨fun s p params ready other short => ⟨?_, ?_, ?_, ?_⟩,
    fun s k n preset v ready hk hn => ⟨fun out => ⟨?_, ?_⟩, ?_, fun out => ?_, fun big => ?_⟩,
    fun s k n ready klo khi nlo nhi => ?_, fun s n ready nlo nhi => ?_,
    fun s k preset ready klo khi => ?_⟩
  iterate 4 exact exec_of_wrongPort ready short rfl other
  iterate 2 exact exec_of_malformed ready (by simp [be]) rfl (hireReceiverParams?_none hk hn out)
  · exact exec_of_malformed ready (by simp [be]) rfl receiverParam?_zero
  · exact exec_of_malformed ready (changePreset_bytes_length preset k) rfl
      ((changePresetParams?_eq preset hk).trans (by rw [hire?_none out]; rfl))
  · exact exec_of_malformed ready (by simp [be]) rfl (changePresetParams?_program big)
  · have add {r : Result} {fields : List Byte} := exec_addReceiver (f := fun u => u) (r := r) (fields := fields) ready klo khi
      nlo nhi State.Apart.id
    have lose {r : Result} {fields : List Byte} := exec_writeOff (f := fun u => u) (r := r) (fields := fields) ready klo khi
      nlo nhi State.Apart.id
    refine ⟨fun absent => ⟨add (addReceiver_noHire ((State.taken_hire ..).trans absent)),
      lose (writeOff_noHire ((State.taken_hire ..).trans absent))⟩, fun h found => ?_⟩
    have found' (c : Byte) : (s.taken .hire c (be 2 k ++ be 2 n)).hire k = some h := (State.taken_hire ..).trans found
    refine ⟨fun settling => ⟨add (addReceiver_settling (found' _) settling), lose (writeOff_settling (found' _) settling)⟩,
      fun opened => ⟨fun full => add (addReceiver_full (found' _) opened full), fun room =>
        ⟨fun absent => add (addReceiver_noReceiver (found' _) opened room (by simpa using absent)), fun r known =>
          ⟨fun other => add (addReceiver_notReady (found' _) opened room (by simpa using known) other), fun free => ?_⟩⟩,
        fun absent => lose (writeOff_noLine (found' _) opened absent), fun i line => ?_⟩⟩
    · refine exec_addReceiver ready klo khi nlo nhi (State.enterLine_apart k n (s.presetOutage h.preset) h.preset) ?_
      rw [addReceiver_ready (found' _) opened room (by simpa using known) free, State.taken_presetOutage]
    · refine exec_writeOff ready klo khi nlo nhi ((State.closeIfDone_apart k).comp (State.writeOffLine_apart h i n)) ?_
      rw [writeOff_of_line (found' _) opened line, State.taken_writeOffLine_way]
  · have plain {r : Result} {fields : List Byte} := exec_returnReceiver (f := fun u => u) (r := r) (fields := fields) ready nlo
      nhi State.Apart.id
    refine ⟨fun absent => plain (returnReceiver_unknown ((State.taken_receiver ..).trans absent)), fun r known => ?_⟩
    have known' : (s.taken .hire 0x32#8 (be 2 n)).receiver n = some r := (State.taken_receiver ..).trans known
    refine ⟨fun k h i out named found line => ?_, fun lost => exec_returnReceiver ready nlo nhi (State.unrackReceiver_apart n)
      (returnReceiver_of_lost known' lost), fun out lost => plain (returnReceiver_notActive known' out lost)⟩
    obtain rfl := s.receiver_number known
    obtain rfl := s.hire_number found
    have here := State.lineOf_of_outLine named found line
    have there := State.lineOf_of_outLine named ((State.taken_hire s .hire 0x32#8 (be 2 r.number) _).trans found) line
    refine exec_returnReceiver ready nlo nhi
      ((State.closeIfDone_apart h.number).comp (State.returnLine_apart h i r.number)) ?_
    rw [returnReceiver_of_onHire known' out, State.returnReceiver_outcome, State.returnReceiver_of_line there,
      State.returnReceiver_of_line here, State.taken_session]
    rfl
  · have plain {r : Result} {fields : List Byte} := exec_changePreset (preset := preset) (f := fun u => u) (r := r)
      (fields := fields) ready klo khi State.Apart.id
    refine ⟨fun absent => plain (changePreset_noHire ((State.taken_hire ..).trans absent)), fun h found => ?_⟩
    have found' : (s.taken .hire 0x34#8 (be 2 k ++ optProgBytes preset)).hire k = some h := (State.taken_hire ..).trans found
    refine ⟨fun settling => plain (changePreset_settling found' settling), fun opened => ⟨fun p named no =>
      plain (changePreset_notConfigured found' opened (State.presetUnconfigured_some named (by simpa using no))),
      fun configured => ?_⟩⟩
    have configured' : (s.taken .hire 0x34#8 (be 2 k ++ optProgBytes preset)).presetUnconfigured preset = false :=
      State.presetUnconfigured_eq_false.mpr (by simpa using configured)
    refine ⟨fun same => plain ?_, fun other => ?_⟩
    · rw [changePreset_same found' opened configured' same, State.taken_presetBytes]
    · refine (exec_changePreset ready klo khi (State.shiftLines_apart k h.outCount h.preset preset (s.presetOutage h.preset)
        (s.presetOutage preset)) (r := .ok) (fields := be 1 h.outCount ++ s.presetBytes preset) ?_).trans ?_
      · rw [changePreset_other found' opened configured' other, State.taken_presetBytes, State.taken_presetOutage,
          State.taken_presetOutage]
      -- A line's outage carried, as R123 states it: by whether the line has a base and the hire a preset.
      · refine congrArg (fun f => Host.Outcome.next (((State.modifyHire _ k f).changeDemand h.preset _).changeDemand preset _))
          (funext fun x => congrArg (fun lines => { x with preset := preset, lines := lines })
            (List.map_congr_left fun l _ => ?_))
        unfold Line.move
        cases l.base <;> cases h.preset <;> rfl

end Sys2Proof.Proofs
end

section
/-! SUPPORT. Scope, the close of a hire and TAKE SETTLEMENT (R126, R142 to R146, R148, R179): each way of a close as an equation,
and the hire at closing position 1 drawn into the queue as one change of the queue, the counters and the hire records. -/

namespace Sys2Proof.Machine

/-! ### Writes of two groups in either order (R185) -/

theorem Table.set_comm {α : Type} {n : Nat} (t : Table α n) {i j : Fin n} (a b : α) (h : i ≠ j) :
    (t.set i a).set j b = (t.set j b).set i a := by
  unfold Table.set
  simp only [List.set_comm _ _ (Fin.val_ne_of_ne h)]

section writes
variable (s : State)

theorem State.setQueue_setQueue (k l : List Settled) : (s.setQueue k).setQueue l = s.setQueue l := by
  unfold State.setQueue State.rewrite
  simp only [Table.set_set]

theorem State.setHires_setHires (k l : List Hire) : (s.setHires k).setHires l = s.setHires l := by
  unfold State.setHires State.rewrite
  simp only [Table.set_set]

theorem State.setHires_setQueue (k : List Hire) (l : List Settled) :
    (s.setHires k).setQueue l = (s.setQueue l).setHires k := by
  unfold State.setHires State.setQueue State.rewrite
  simp only [Table.set_comm _ true true (show (1 : Fin 10) ≠ 2 by decide)]

theorem State.modifyCounters_setQueue (f : DayCounters → DayCounters) (l : List Settled) :
    (s.modifyCounters f).setQueue l = (s.setQueue l).modifyCounters f := by
  unfold State.modifyCounters State.setQueue State.rewrite
  simp only [Table.set_comm _ true true (show (9 : Fin 10) ≠ 2 by decide)]

end writes

/-! ### The close of a hire (R126, R142 to R145) -/

section close
variable {s : State} {h : Hire}

/-- A record at the end of the queue, counted in the day (R144, R148). -/
def State.queueSettled (s : State) (r : Settled) : State :=
  (s.setQueue (s.settlement.queue ++ [r])).modifyCounters fun c => c.addSettled r.account

theorem State.appendSettled_of_empty {r : Settled} (empty : s.settlement.queue = []) :
    s.appendSettled r = (s.queueSettled r).notify .settlementWaiting r.hire 1 0 0 :=
  if_pos (by simp [empty])

theorem State.appendSettled_of_queued {r : Settled} (queued : s.settlement.queue ≠ []) :
    s.appendSettled r = s.queueSettled r := if_neg (by simpa using queued)

theorem State.closeHire_queued (room : s.settlement.queue.length < 64) {a : Account}
    (frozen : a = accountOf (s.tariff h.plan) (h.close s.session.clock s.session.valid)) : s.closeHire h =
      ((s.removeHire h.number).appendSettled
        ((h.close s.session.clock s.session.valid).settled s.session.clock a), .queued) := by
  subst frozen
  exact if_pos room

theorem State.closeHire_settling (full : 64 ≤ s.settlement.queue.length) {a : Account}
    (frozen : a = accountOf (s.tariff h.plan) (h.close s.session.clock s.session.valid)) : s.closeHire h =
      ((s.modifyHire h.number fun _ => (h.close s.session.clock s.session.valid).wait (s.settlingCount + 1) a).raiseFault
        .settlementBacklog h.number, .settling) := by
  subst frozen
  exact if_neg full.not_gt

variable (found : s.hire h.number = some h)
include found

theorem State.closeIfDone_of_out (out : h.anyOut = true) : s.closeIfDone h.number = (s, none) := by
  simp only [State.closeIfDone, found, out, if_true]

theorem State.closeIfDone_of_done (done : h.anyOut = false) :
    s.closeIfDone h.number = ((s.closeHire h).1, some (s.closeHire h).2) := by
  simp only [State.closeIfDone, found, done, Bool.false_eq_true, if_false]

end close

/-! ### TAKE SETTLEMENT (R146) -/

@[simp] theorem State.taken_firstSettling (s : State) (p : Port) (c : Byte) (l : List Byte) :
    (s.taken p c l).firstSettling = s.firstSettling := by cases p <;> rfl

section take
variable {s : State} {h : Hire} {r : Settled} {rest : List Settled}

theorem State.firstSettling_eq_none :
    s.firstSettling = none ↔ ∀ h ∈ s.hires.records, h.state = .settling → h.closingPos ≠ some 1 := by
  simp [State.firstSettling]

theorem State.firstSettling_of_unique (mem : h ∈ s.hires.records) (settling : h.state = .settling)
    (first : h.closingPos = some 1)
    (unique : ∀ g ∈ s.hires.records, g.state = .settling → g.closingPos = some 1 → g = h) : s.firstSettling = some h := by
  refine find?_of_unique mem (by simp [settling, first]) fun g here passes => ?_
  rw [Bool.and_eq_true, beq_iff_eq, beq_iff_eq] at passes
  exact unique g here passes.1 passes.2

/-- The writes of TAKE SETTLEMENT that draws a hire in (R146): the queue, the day counters and the hire records. -/
def State.takeDrawn (s : State) (queue : List Settled) (a : Account) (records : List Hire) : State :=
  ((s.setQueue queue).modifyCounters fun c => c.addSettled a).setHires records

theorem State.takeDrawn_apart (queue : List Settled) (a : Account) (records : List Hire) :
    State.Apart fun s => s.takeDrawn queue a records :=
  (State.setHires_apart records).comp ((State.modifyCounters_apart _).comp (State.setQueue_apart queue))

/-- The hire at closing position 1 drawn in: its record behind the rest of the queue, and the SETTLING hires behind it one
position on (R146). -/
theorem State.takeRest_of_first {a : Account} {time : HallTime} (first : s.firstSettling = some h)
    (account : h.account = some a) (closed : h.closedAt = some time) : s.takeRest r rest =
      s.takeDrawn (rest ++ [h.settled time a]) a ((s.hires.records.filter fun x => x.number ≠ h.number).map Hire.moveUp) := by
  have record : h.settled time a = h.settled (h.closedAt.getD s.session.clock) (s.frozen h) := by
    rw [closed, State.frozen, account]
    rfl
  unfold State.takeRest
  rw [first]
  dsimp only
  rw [State.drawIn_of_queued (s.setQueue (r :: rest)) h (h.settled time a) (by simp) record, State.removeHire,
    State.setHires_setHires, State.setHires_setQueue, State.modifyCounters_setQueue, State.setQueue_setQueue,
    State.setQueue_setQueue]
  rfl

theorem State.takeRest_of_none (absent : s.firstSettling = none) : s.takeRest r rest = s.setQueue rest := by
  unfold State.takeRest
  rw [absent]

/-- One record of a kind taken out of a table leaves one fewer of the kind. -/
theorem countP_remove {α : Type} [DecidableEq α] {key : α → Nat} {l : List α} {a : α} {test : α → Bool}
    (sorted : l.Pairwise fun a b => key a < key b) (mem : a ∈ l) (passes : test a = true) :
    (l.filter fun b => key b ≠ key a).countP test = l.countP test - 1 := by
  have distinct : l.Nodup := sorted.imp fun below same => absurd (congrArg key same) below.ne
  have others : (l.filter fun b => key b ≠ key a) = l.erase a := by
    rw [distinct.erase_eq_filter]
    refine List.filter_congr fun b here => ?_
    have same : key b = key a → b = a := fun equal => by
      have first := (mem_iff_find? sorted b).mp here
      rw [equal, (mem_iff_find? sorted a).mp mem] at first
      exact (Option.some.inj first).symm
    rw [Bool.eq_iff_iff]
    simpa using not_congr ⟨same, congrArg key⟩
  rw [others, List.countP_erase, if_pos ⟨mem, passes⟩]

/-- A SETTLING hire drawn in waits no more (R145, R146). -/
theorem State.takeDrawn_settlingCount (s : State) {l : List Hire} (sorted : l.Pairwise fun x y => x.number < y.number)
    (mem : h ∈ l) (settling : h.state = .settling) (queue : List Settled) (a : Account) :
    (s.takeDrawn queue a ((l.filter fun x => x.number ≠ h.number).map Hire.moveUp)).settlingCount =
      (l.countP fun x => x.state = .settling) - 1 := by
  rw [State.settlingCount_eq, ← countP_remove (key := Hire.number) sorted mem (by simpa using settling)]
  show List.countP _ (List.map _ _) = _
  rw [List.countP_map]
  simp only [Function.comp_def, Hire.moveUp_kept]

theorem State.takeDrawn_queue_length (s : State) (x : Settled) (a : Account) (records : List Hire) :
    (s.takeDrawn (rest ++ [x]) a records).settlement.queue.length = rest.length + 1 := List.length_append

theorem takeSettlement_empty (empty : s.settlement.queue = []) : takeSettlement () s = ⟨s, .empty, be 1 0⟩ := by
  simp only [takeSettlement, empty]

theorem takeSettlement_queued (queued : s.settlement.queue = r :: rest) : takeSettlement () s =
    ⟨s.takeRest r rest, .ok, r.bytes ++ be 1 (s.takeRest r rest).settlement.queue.length
      ++ be 2 (s.takeRest r rest).settlingCount ++ optBytes 2 (s.firstSettling.map (·.number))⟩ := by
  simp only [takeSettlement, queued]

/-- TAKE SETTLEMENT by what its body does (R146). -/
theorem exec_takeSettlement {f : State → State} {x : Result} {fields : List Byte} (ready : s.canTake .hire)
    (apart : State.Apart f)
    (hb : takeSettlement () (s.taken .hire 0x3C#8 []) = ⟨f (s.taken .hire 0x3C#8 []), x, fields⟩) :
    exec (.takeSettlement .hire []) s = .next (f (s.answered .hire 0x3C#8 x fields)) :=
  exec_of_apart (body := takeSettlement) ready (Nat.zero_le _) rfl rfl (parsed := noParams? []) rfl apart hb

end take

theorem LineAccount.bytes_eq (l : LineAccount) : l.bytes = be 2 l.receiver ++ be 1 (if l.outcome = .lost then 2 else 1)
    ++ be 3 l.minutes ++ be 3 l.gross ++ be 3 l.credited ++ be 3 l.charge := by
  unfold LineAccount.bytes
  cases l.outcome <;> rfl

/-- The bytes of a settlement record (R179). -/
theorem Settled.bytes_eq (r : Settled) : r.bytes = be 2 r.hire ++ be 3 r.badge ++ be 1 r.plan.val ++ be 3 r.deposit
    ++ be 4 r.openedAt.abs ++ be 4 r.closedAt.abs ++ be 1 ((if r.overdue then 1 else 0) + (if r.suspect then 2 else 0))
    ++ be 1 r.account.lines.length
    ++ r.account.lines.flatMap (fun l => be 2 l.receiver ++ be 1 (if l.outcome = .lost then 2 else 1) ++ be 3 l.minutes
      ++ be 3 l.gross ++ be 3 l.credited ++ be 3 l.charge)
    ++ be 4 r.account.total ++ be 4 (BitVec.ofInt 32 r.account.balance).toNat := by
  simp only [← LineAccount.bytes_eq]
  rfl

end Sys2Proof.Machine

namespace Sys2Proof.Proofs
open Sys2Proof Sys2Proof.Machine

/-- Settles O55: each way of a close by its equation, and TAKE SETTLEMENT by whether a hire waits at closing position 1
(`State.takeRest_of_first`). -/
theorem hiresCloseAndSettlementsAreTaken : Obligations.HiresCloseAndSettlementsAreTaken := by
  refine ⟨fun s h found => ⟨State.closeIfDone_of_out found, fun done c a closed frozen => ?_⟩,
    fun s ready => ⟨fun empty => ?_, fun r rest record queued bytes => ⟨fun absent => ?_, ?_⟩⟩⟩
  · subst closed
    rw [State.closeIfDone_of_done found done]
    refine ⟨fun room u left => ?_, fun full => ?_⟩
    · subst left
      rw [State.closeHire_queued room frozen]
      refine ⟨fun empty => ?_, fun more => ?_⟩
      · rw [State.appendSettled_of_empty (s := s.removeHire h.number) empty]
        rfl
      · rw [State.appendSettled_of_queued (s := s.removeHire h.number) more]
        rfl
    · rw [State.closeHire_settling full frozen, State.settlingCount_eq]
      rfl
  · exact exec_takeSettlement ready State.Apart.id
      (takeSettlement_empty ((congrArg Settlement.queue (State.taken_settlement ..)).trans empty))
  all_goals
    have queued' : (s.taken .hire 0x3C#8 []).settlement.queue = r :: rest :=
      (congrArg Settlement.queue (State.taken_settlement ..)).trans queued
    obtain rfl : record = r.bytes := bytes.trans r.bytes_eq.symm
  · have first : (s.taken .hire 0x3C#8 []).firstSettling = none :=
      (State.taken_firstSettling ..).trans (State.firstSettling_eq_none.mpr absent)
    refine exec_takeSettlement ready (State.setQueue_apart rest) ?_
    rw [takeSettlement_queued queued', State.takeRest_of_none first, first, State.settlingCount_eq]
    rfl
  · intro h a time mem settling position account closed sorted unique
    have first : (s.taken .hire 0x3C#8 []).firstSettling = some h :=
      (State.taken_firstSettling ..).trans (State.firstSettling_of_unique mem settling position unique)
    refine exec_takeSettlement ready (State.takeDrawn_apart (rest ++ [h.settled time a]) a
        ((s.hires.records.filter fun x => x.number ≠ h.number).map Hire.moveUp)) ?_
    rw [takeSettlement_queued queued', State.takeRest_of_first first account closed, first, State.taken_hires,
      State.takeDrawn_settlingCount _ sorted mem settling, State.takeDrawn_queue_length]
    simp only [Option.map_some, optBytes, List.append_assoc]

end Sys2Proof.Proofs
end

section
/-! SUPPORT. Scope, the tariff plans and the account of a hire (R134 to R142): a plan as read from bytes and as clamped to its
ranges, and the charge of a line with its bounds. -/

namespace Sys2Proof.Machine

/-! ### SET TARIFF and READ TARIFF (R135, R136) -/

section parameters
variable {k g u c d l h : Nat}

/-- SET TARIFF's parameters by the plan that its first byte names (R135, R170). -/
theorem tariffParams?_eq (hk : k < 256) (hg : g < 256) (hu : u < 2 ^ 16) (hc : c < 2 ^ 16) (hd : d < 2 ^ 24)
    (hl : l < 2 ^ 24) (hh : h < 256) :
    tariffParams? (be 1 k ++ be 1 g ++ be 2 u ++ be 2 c ++ be 3 d ++ be 3 l ++ be 1 h) =
      (index? 0 8 k).map fun plan => (plan, ⟨g, u, c, d, l, h⟩) := by
  simp only [be_one, be_two, be_three, List.cons_append, List.nil_append, tariffParams?, byte_ofNat hk, byte_ofNat hg,
    byte_ofNat hh, num_two hu, num_two hc, num_three hd, num_three hl]

theorem clamp_zero_of_le {hi n : Nat} (fits : n ≤ hi) : clamp 0 hi n = n := by
  rw [clamp, min_eq_right fits, Nat.zero_max]

/-- Two bytes cannot carry a unit charge above its range (R134). -/
theorem Tariff.clamped_eq (hc : c < 2 ^ 16) : (⟨g, u, c, d, l, h⟩ : Tariff).clamped =
    ⟨min 120 g, max 1 (min 1440 u), c, min 1000000 d, min 1000000 l, max 1 (min 240 h)⟩ := by
  rw [Tariff.clamped, clamp_zero_of_le (Nat.le_of_lt_succ hc)]
  simp only [clamp, Nat.zero_max]

end parameters

theorem plan?_byte {b : Byte} {k : Fin 8} (h : b.toNat = k.val) : plan? b = some k :=
  index?_eq k (h.trans (Nat.zero_add _).symm)

theorem plan?_none {b : Byte} (h : 7 < b.toNat) : plan? b = none := index?_none (.inr h)

/-! ### The charge of a line (R137 to R140) -/

section charge
variable {t : Tariff} {opened : HallTime} {l : Line}

theorem lineAccount_of_returned (h : l.state = .returned) : lineAccount t opened l = returnedAccount t opened l := by
  rw [lineAccount, h]

theorem lineAccount_of_lost (h : l.state = .lost) :
    lineAccount t opened l = ⟨l.receiver, .lost, 0, 0, 0, t.lostCharge⟩ := by
  rw [lineAccount, h]

theorem creditedUnits_le_gross (t : Tariff) (outage gross : Nat) : creditedUnits t outage gross ≤ gross :=
  min_le_right ..

/-- Within the grace a line has no units (R137). -/
theorem grossUnits_of_grace {minutes : Nat} (h : minutes ≤ t.grace) : grossUnits t minutes = 0 := if_pos h

theorem lineCharge_le (t : Tariff) (seconds gross credited : Nat) : lineCharge t seconds gross credited ≤ maxLineCharge :=
  min_le_right ..

theorem cappedCharge_le (t : Tariff) (seconds raw : Nat) : cappedCharge t seconds raw ≤ raw := by
  unfold cappedCharge
  split
  · exact le_rfl
  · exact min_le_left ..

/-- A line without a net unit, or under a plan without a unit charge, costs nothing (R139). -/
theorem lineCharge_eq_zero {seconds gross credited : Nat} (h : gross ≤ credited ∨ t.unitCharge = 0) :
    lineCharge t seconds gross credited = 0 := by
  have raw : (gross - credited) * t.unitCharge = 0 :=
    Nat.mul_eq_zero.mpr (h.imp_left Nat.sub_eq_zero_of_le)
  refine Nat.le_zero.mp ?_
  calc lineCharge t seconds gross credited
      ≤ cappedCharge t seconds ((gross - credited) * t.unitCharge) := min_le_left ..
    _ ≤ (gross - credited) * t.unitCharge := cappedCharge_le ..
    _ = 0 := raw

/-- No line costs more than the saturation, as no lost charge is above it (R134, R139, R140). -/
theorem lineAccount_charge_le (range : t.inRange) (opened : HallTime) (l : Line) :
    (lineAccount t opened l).charge ≤ maxLineCharge := by
  obtain ⟨-, -, -, -, -, lost, -, -⟩ := range
  cases h : l.state with
  | lost =>
    rw [lineAccount_of_lost h]
    exact lost.trans (by decide)
  | out =>
    rw [lineAccount, h]
    exact lineCharge_le ..
  | returned =>
    rw [lineAccount_of_returned h]
    exact lineCharge_le ..

end charge

/-! ### The account of a hire (R141) -/

/-- The total is at most the saturation for each line (R141). -/
theorem accountOf_total_le {t : Tariff} (range : t.inRange) (h : Hire) :
    (accountOf t h).total ≤ h.lines.length * maxLineCharge := by
  have each : ∀ charge ∈ (h.lines.map (lineAccount t h.openedAt)).map (·.charge), charge ≤ maxLineCharge := by
    simp only [List.map_map, List.forall_mem_map]
    exact fun l _ => lineAccount_charge_le range h.openedAt l
  simpa [accountOf] using List.sum_le_card_nsmul _ _ each

end Sys2Proof.Machine

namespace Sys2Proof.Proofs
open Sys2Proof Sys2Proof.Machine

/-- Settles O23: the parameters are read by the plan that they name (`tariffParams?_eq`), and the plan's write leaves the request
and answer slots apart. -/
theorem tariffsAreSetAndRead : Obligations.TariffsAreSetAndRead := by
  refine ⟨fun s p params ready other short => exec_of_wrongPort ready short rfl other,
    fun s k g u c d l h ready hk hg hu hc hd hl hh params t bytes clamped => ?_,
    fun s p b ready => ⟨fun k plan => ?_, fun big => ?_⟩⟩
  · obtain rfl : t = Tariff.clamped ⟨g, u, c, d, l, h⟩ := clamped.trans (Tariff.clamped_eq hc).symm
    have short : params.length ≤ 250 := by simp [bytes, be]
    have read := bytes ▸ tariffParams?_eq hk hg hu hc hd hl hh
    refine ⟨fun big => ?_, fun plan named => ?_⟩
    · exact exec_of_malformed ready short rfl (read.trans (by rw [index?_none (.inr big)]; rfl))
    · have parsed : tariffParams? params = some (plan, ⟨g, u, c, d, l, h⟩) :=
        read.trans (by rw [index?_eq plan (named.symm.trans (Nat.zero_add _).symm)]; rfl)
      have fits : paramsFit 0x5A#8 params = true := by rw [bytes]; rfl
      exact exec_of_apart (body := fun a : Fin 8 × Tariff => setTariff a.1 a.2) ready short rfl fits parsed
        (State.setTariff_apart plan _) rfl
  · refine exec_of_plain (body := readTariff) ready (by simp) (by cases p <;> rfl) rfl (plan?_byte plan) ?_
    rw [readTariff, State.taken_tariff]
    rfl
  · exact exec_of_malformed ready (by simp) (by cases p <;> rfl) (plan?_none big)

/-- Settles O56: each stage is the model's own, a line that has no net unit or no unit charge costs nothing
(`lineCharge_eq_zero`), and the total is bounded line by line (`accountOf_total_le`). -/
theorem accountsFollowTheChargeStages : Obligations.AccountsFollowTheChargeStages := by
  refine ⟨fun t opened l s m g o c raw capped returned hs hm hg ho hc hraw hcapped => ?_,
    fun t opened l => lineAccount_of_lost, fun t h range few deposit => ?_⟩
  · obtain rfl : s = durationOf opened l := hs
    obtain rfl : m = minutesOf (durationOf opened l) := hm
    obtain rfl : g = grossUnits t _ := hg
    obtain rfl : o = (outageOf l).toNat := ho
    obtain rfl : c = creditedUnits t _ _ := hc
    subst hraw
    obtain rfl : capped = cappedCharge t _ _ := hcapped
    refine ⟨lineAccount_of_returned returned, creditedUnits_le_gross .., fun free => lineCharge_eq_zero ?_⟩
    rcases free with grace | credited | uncharged
    · exact .inl ((grossUnits_of_grace grace).trans_le (Nat.zero_le _))
    · exact .inl credited.ge
    · exact .inr uncharged
  · have total : (accountOf t h).total ≤ 134217720 :=
      (accountOf_total_le range h).trans (Nat.mul_le_mul_right maxLineCharge few)
    have balance : (accountOf t h).balance = (h.deposit : Int) - (accountOf t h).total := rfl
    exact ⟨rfl, rfl, balance, total, by omega, by omega⟩

end Sys2Proof.Proofs
end

section
/-! SUPPORT. Scope, SET CLOCK and DAY CLOSE (R156, R157, R161, R162): the OPEN hire that a loaded clock steps back behind, and the
two commands as their writes. -/

namespace Sys2Proof.Machine

/-! ### The OPEN hire of the latest opened time (R157) -/

/-- Hire `h` was opened after `g`, or at the same time under a number that is not higher (R157). -/
def OpenedAfter (h g : Hire) : Prop :=
  g.openedAt.abs < h.openedAt.abs ∨ (g.openedAt.abs = h.openedAt.abs ∧ h.number ≤ g.number)

theorem OpenedAfter.refl (h : Hire) : OpenedAfter h h := .inr ⟨rfl, le_rfl⟩

theorem OpenedAfter.trans {h g k : Hire} (first : OpenedAfter h g) (second : OpenedAfter g k) : OpenedAfter h k := by
  unfold OpenedAfter at *
  omega

/-- Hires that were each opened after the other agree in what SET CLOCK reads of them. -/
theorem OpenedAfter.antisymm {h g : Hire} (first : OpenedAfter h g) (second : OpenedAfter g h) :
    h.openedAt.abs = g.openedAt.abs ∧ h.number = g.number := by
  unfold OpenedAfter at *
  omega

theorem laterOpened_some (b h : Hire) :
    (laterOpened (some b) h = some h ∧ OpenedAfter h b) ∨ (laterOpened (some b) h = some b ∧ OpenedAfter b h) := by
  unfold laterOpened OpenedAfter
  dsimp only
  split
  · next later => exact .inl ⟨rfl, .inl later⟩
  · split
    · next lower => exact .inl ⟨rfl, .inr ⟨lower.1, lower.2.le⟩⟩
    · exact .inr ⟨rfl, by omega⟩

/-- The fold over a list of hires ends with one of them, or the one it began with, opened after all of them. -/
theorem foldl_laterOpened_some (l : List Hire) (b : Hire) :
    ∃ k ∈ b :: l, l.foldl laterOpened (some b) = some k ∧ ∀ g ∈ b :: l, OpenedAfter k g := by
  induction l generalizing b with
  | nil => exact ⟨b, by simp, rfl, by simp [OpenedAfter.refl]⟩
  | cons h rest ih =>
    rw [List.foldl_cons]
    rcases laterOpened_some b h with ⟨next, after⟩ | ⟨next, after⟩ <;> rw [next]
    · obtain ⟨k, mem, result, latest⟩ := ih h
      refine ⟨k, List.mem_cons_of_mem _ mem, result, List.forall_mem_cons.mpr ⟨?_, latest⟩⟩
      exact (latest h (List.mem_cons_self ..)).trans after
    · obtain ⟨k, mem, result, latest⟩ := ih b
      obtain ⟨first, others⟩ := List.forall_mem_cons.mp latest
      refine ⟨k, ?_, result, ?_⟩
      · rcases List.mem_cons.mp mem with rfl | later <;> simp [*]
      · exact List.forall_mem_cons.mpr ⟨first, List.forall_mem_cons.mpr ⟨first.trans after, others⟩⟩

theorem State.latestOpen_eq_none {s : State} : s.latestOpen = none ↔ ∀ h ∈ s.hires.records, h.state ≠ .opened := by
  unfold State.latestOpen
  cases filtered : s.hires.records.filter fun h => h.state == .opened with
  | nil => simpa using filtered
  | cons b rest =>
    obtain ⟨k, -, result, -⟩ := foldl_laterOpened_some rest b
    have here : b ∈ s.hires.records.filter fun h => h.state == .opened := filtered ▸ List.mem_cons_self ..
    obtain ⟨mem, opened⟩ := List.mem_filter.mp here
    refine iff_of_false ?_ fun noOpen => noOpen b mem (by simpa using opened)
    exact fun absent => nomatch result.symm.trans absent

theorem State.latestOpen_eq_some {s : State} {k : Hire} (latest : s.latestOpen = some k) :
    (k ∈ s.hires.records ∧ k.state = .opened) ∧ ∀ g ∈ s.hires.records, g.state = .opened → OpenedAfter k g := by
  unfold State.latestOpen at latest
  have opened (h : Hire) : h ∈ (s.hires.records.filter fun h => h.state == .opened) ↔
      h ∈ s.hires.records ∧ h.state = .opened := by simp
  cases filtered : s.hires.records.filter fun h => h.state == .opened with
  | nil => rw [filtered] at latest; cases latest
  | cons b rest =>
    rw [filtered] at latest opened
    obtain ⟨k', mem, result, after⟩ := foldl_laterOpened_some rest b
    obtain rfl : k' = k := Option.some.inj (result.symm.trans latest)
    exact ⟨(opened k').mp mem, fun g here isOpen => after g ((opened g).mpr ⟨here, isOpen⟩)⟩

/-- No OPEN hire was opened after the loaded value: it is no step back (R157). -/
theorem State.steppedBack_eq_none {s : State} {loaded : HallTime}
    (ahead : ∀ h ∈ s.hires.records, h.state = .opened → h.openedAt.abs ≤ loaded.abs) : s.steppedBack loaded = none := by
  unfold State.steppedBack
  rw [Option.filter_eq_none_iff]
  intro k latest
  obtain ⟨⟨mem, opened⟩, -⟩ := State.latestOpen_eq_some latest
  simpa using ahead k mem opened

/-- A loaded value before the opened time of the OPEN hire `h`, the latest one and of those the lowest, steps back behind a hire
of its number (R157). -/
theorem State.steppedBack_eq_some {s : State} {loaded : HallTime} {h : Hire} (mem : h ∈ s.hires.records)
    (opened : h.state = .opened) (back : loaded.abs < h.openedAt.abs)
    (latest : ∀ g ∈ s.hires.records, g.state = .opened → OpenedAfter h g) :
    ∃ k, s.steppedBack loaded = some k ∧ k.number = h.number := by
  cases found : s.latestOpen with
  | none => exact absurd opened (State.latestOpen_eq_none.mp found h mem)
  | some k =>
    obtain ⟨⟨here, isOpen⟩, after⟩ := State.latestOpen_eq_some found
    obtain ⟨time, number⟩ := (after h mem opened).antisymm (latest k here isOpen)
    refine ⟨k, ?_, number⟩
    unfold State.steppedBack
    rw [found, Option.filter_some, if_pos (by rw [time]; exact decide_eq_true back)]

/-! ### SET CLOCK (R156) -/

/-- SET CLOCK without a step back: the clock loaded and valid, and the tick watch restarted. -/
theorem State.loadClock_of_none {s : State} {loaded : HallTime} (forth : s.steppedBack loaded = none) :
    s.loadClock loaded = (s.setClock loaded true).restartTickWatch := by
  unfold State.loadClock
  rw [forth]

theorem State.loadClock_of_some {s : State} {loaded : HallTime} {h : Hire} (back : s.steppedBack loaded = some h) :
    s.loadClock loaded = ((s.setClock loaded true).restartTickWatch).raiseFault .clockStepBack h.number := by
  unfold State.loadClock
  rw [back]

theorem clockParams?_bytes {day second : Nat} (hd : day < 2 ^ 16) (hs : second < 2 ^ 24) :
    clockParams? (be 2 day ++ be 3 second) = some (day, second) := by
  simp only [be_two, be_three, List.cons_append, List.nil_append, clockParams?, num_two hd, num_three hs]

/-- SET CLOCK answers OK where its value is within the ranges, OK_CLAMPED where it was clamped (R156). -/
theorem loaded_unclamped_iff (day second : Nat) :
    (⟨min 9999 day, min 86399 second⟩ : HallTime) = ⟨day, second⟩ ↔ day ≤ 9999 ∧ second ≤ 86399 := by
  simp

/-- SET CLOCK on the Operator port, from the state that its body leaves. -/
theorem exec_setClock {s : State} {day second : Nat} {f : State → State} (ready : s.canTake .operator)
    (hd : day < 2 ^ 16) (hs : second < 2 ^ 24) (apart : State.Apart f)
    (load : (s.taken .operator 0x5C#8 (be 2 day ++ be 3 second)).loadClock ⟨min 9999 day, min 86399 second⟩ =
      f (s.taken .operator 0x5C#8 (be 2 day ++ be 3 second))) :
    exec (.setClock .operator (be 2 day ++ be 3 second)) s = .next (f (s.answered .operator 0x5C#8
      (if day ≤ 9999 ∧ second ≤ 86399 then .ok else .okClamped)
      (be 2 (min 9999 day) ++ be 3 (min 86399 second) ++ be 4 s.session.clock.abs ++ flagByte s.session.valid
        ++ flagByte (s.steppedBack ⟨min 9999 day, min 86399 second⟩).isSome))) := by
  refine exec_of_apart (body := fun a : Nat × Nat => setClock a.1 a.2) ready (by simp [be]) rfl rfl
    (clockParams?_bytes hd hs) apart ?_
  unfold setClock
  simp only [loaded_unclamped_iff, load]
  rfl

/-! ### DAY CLOSE (R161, R162) -/

/-- The entries that a DAY CLOSE keeps are those with a current desk or a count of the day that ends. -/
theorem State.keptInterpreters_eq (s : State) : s.keptInterpreters =
    (s.booth.interpreters.filter fun e => e.desk ≠ none ∨ e.onAir ≠ 0 ∨ e.turns ≠ 0).map Interpreter.moveDay := by
  unfold State.keptInterpreters
  rw [List.filter_map]
  refine congrArg _ (List.filter_congr fun e _ => ?_)
  rw [Bool.eq_iff_iff]
  simp [Interpreter.stays, Interpreter.moveDay, Option.isSome_iff_ne_none, or_assoc]

theorem State.closeDay_apart : State.Apart State.closeDay := by
  intro s p c r l
  cases p <;> rfl

end Sys2Proof.Machine

namespace Sys2Proof.Proofs
open Sys2Proof Sys2Proof.Machine

/-- Settles O58: the hire that the loaded value steps back behind is found by its opened time (`State.steppedBack_eq_some`), and
DAY CLOSE's writes leave the request and answer slots apart (`State.closeDay_apart`). -/
theorem clockIsLoadedAndDayIsClosed : Obligations.ClockIsLoadedAndDayIsClosed := by
  refine ⟨fun s u day second loaded back ready hd hs load left => ?_,
    fun s ready => ⟨fun live => ?_, fun notLive kept next day keeps => ?_⟩⟩
  · subst load left
    have clocked : State.Apart fun s => (s.setClock ⟨min 9999 day, min 86399 second⟩ true).restartTickWatch :=
      State.restartTickWatch_apart.comp (State.setClock_apart _ _)
    refine ⟨fun ahead forward => ?_, fun h mem opened earlier latest backward => ?_⟩
    · have forth := State.steppedBack_eq_none ahead
      rw [forward, exec_setClock ready hd hs clocked (State.loadClock_of_none forth), forth]
      rfl
    · obtain ⟨k, stepped, number⟩ := State.steppedBack_eq_some mem opened earlier latest
      rw [backward, ← number, exec_setClock ready hd hs ((State.raiseFault_placeAnswer _ _).comp clocked)
        (State.loadClock_of_some stepped), stepped]
      rfl
  · refine exec_of_plain (body := dayClose) ready (by simp) rfl rfl rfl ?_
    exact if_pos live
  · refine ⟨s.programs.map Program.dayOutage, s.programs.mapIdx fun _ r => { r with outageBase := r.outage },
      fun p => Table.get_map .., fun p => Table.get_mapIdx .., ?_⟩
    have same : s.keptInterpreters = kept := s.keptInterpreters_eq.trans keeps.symm
    have answer : dayClose () (s.taken .operator 0x5D#8 []) = ⟨(s.taken .operator 0x5D#8 []).closeDay, .ok,
        be 2 s.session.dayNumber ++ be 2 next ++ be 1 (s.booth.interpreters.length - kept.length)⟩ := by
      rw [day, ← same]
      exact if_neg notLive
    refine (exec_of_apart (body := dayClose) ready (by simp) rfl rfl rfl State.closeDay_apart answer).trans ?_
    rw [day, ← same]
    rfl

end Sys2Proof.Proofs
end

section
/-! SUPPORT. Scope, the faults of a start-up (R182, R183, R186): while it runs every operation of its passes holds its raises
(`State.HoldsAlerts`), and once it is over a raise goes into the capture, which keeps a severe fault's details
(`State.Captures`). -/

namespace Sys2Proof.Machine

/-! ### Raises held while a start-up runs (R186) -/

/-- From `s` to `t` the start-up stands, and the capture has gained held raises of alerts alone. -/
structure State.HoldsAlerts (s t : State) : Prop where
  startup : t.startup = s.startup
  faults : ∃ more, t.faults = { s.faults with held := s.faults.held ++ more } ∧ ∀ f ∈ more, f.1.severe = false

theorem State.HoldsAlerts.of_eq {s t : State} (startup : t.startup = s.startup) (faults : t.faults = s.faults) :
    s.HoldsAlerts t := ⟨startup, [], by simp [faults], by simp⟩

theorem State.HoldsAlerts.refl (s : State) : s.HoldsAlerts s := .of_eq rfl rfl

theorem State.HoldsAlerts.trans {s t u : State} (h : s.HoldsAlerts t) (k : t.HoldsAlerts u) : s.HoldsAlerts u := by
  obtain ⟨first, faults, alerts⟩ := h.faults
  obtain ⟨second, faults', alerts'⟩ := k.faults
  refine ⟨k.startup.trans h.startup, first ++ second, by rw [faults', faults]; simp, fun f here => ?_⟩
  exact (List.mem_append.mp here).elim (alerts f) (alerts' f)

theorem State.HoldsAlerts.running {s t : State} (h : s.HoldsAlerts t) (starting : s.startup ≠ .done) :
    t.startup ≠ .done := by
  rw [h.startup]
  exact starting

theorem State.offer_faults (s : State) (p : Port) (n : Notice) : (s.offer p n).1.faults = s.faults := by
  rcases s.offer_cases p n with ⟨-, result⟩ | ⟨-, -, result⟩ | ⟨-, -, result⟩ <;> rw [result]
  · exact State.setPort_faults ..
  · exact State.setPort_faults ..

theorem State.offerAll_faults (ports : List Port) (s : State) (n : Notice) : (s.offerAll ports n).1.faults = s.faults := by
  induction ports generalizing s with
  | nil => rfl
  | cons p rest ih => exact (ih _).trans (s.offer_faults p n)

theorem State.Reports.startup {s t : State} (h : s.Reports t) : t.startup = s.startup := by rw [show t = _ from h]

theorem State.Reports.session {s t : State} (h : s.Reports t) : t.session = s.session := by rw [show t = _ from h]

section holds
variable {s : State} (starting : s.startup ≠ .done)
include starting

theorem State.HoldsAlerts.foldl {α : Type} {f : State → α → State}
    (hf : ∀ (u : State) (a : α), u.startup ≠ .done → u.HoldsAlerts (f u a)) (l : List α) :
    s.HoldsAlerts (l.foldl f s) := by
  induction l generalizing s with
  | nil => exact .refl s
  | cons a rest ih =>
    have first := hf s a starting
    exact first.trans (ih (first.running starting))

theorem State.raiseFault_holdsAlerts {f : FaultKind} (alert : f.severe = false) (c : Nat) :
    s.HoldsAlerts (s.raiseFault f c) := by
  unfold State.raiseFault
  rw [if_pos (by simpa [State.starting] using starting)]
  exact ⟨rfl, [(f, c)], rfl, by simpa using alert⟩

theorem State.notify_holdsAlerts (k : NoticeKind) (a b c d : Nat) : s.HoldsAlerts (s.notify k a b c d) := by
  have offered : s.HoldsAlerts (s.offerAll k.ports ⟨k, s.session.clock, [a, b, c, d]⟩).1 :=
    .of_eq (State.offerAll_reports ..).startup (State.offerAll_faults ..)
  refine offered.trans (State.HoldsAlerts.foldl (offered.running starting) (fun u p running => ?_) _)
  exact State.raiseFault_holdsAlerts running rfl _

theorem State.derivationPass_holdsAlerts : s.HoldsAlerts s.derivationPass := by
  have tables : s.HoldsAlerts (s.passTables s.derivationPass.programs s.derivationPass.booth.desks) := .of_eq rfl rfl
  rw [State.derivationPass_eq]
  refine tables.trans (State.HoldsAlerts.foldl (tables.running starting) (fun u i running => ?_) _)
  unfold State.relayNotice
  split
  · exact State.notify_holdsAlerts running ..
  · exact State.notify_holdsAlerts running ..
  · exact .refl u
  · exact .refl u

theorem State.passNotice_holdsAlerts (p : Prog) (old new : Radiation) (r : Program) (budget : Nat) :
    s.HoldsAlerts (s.passNotice p old new r budget) := by
  unfold State.passNotice
  dsimp only
  split
  · have shed := State.notify_holdsAlerts starting .programShed p.val r.config.priority.code r.demand budget
    split
    · exact shed.trans (State.notify_holdsAlerts (shed.running starting) ..)
    · exact shed
  · split
    · exact State.notify_holdsAlerts starting ..
    · exact .refl s

theorem State.allocationPass_holdsAlerts : s.HoldsAlerts s.allocationPass := by
  have tables : s.HoldsAlerts s.planned := .of_eq rfl rfl
  have notices : s.HoldsAlerts (s.planned.passNotices s.programs s.plannedPrograms s.budget) :=
    tables.trans (State.HoldsAlerts.foldl (tables.running starting)
      (fun _ _ running => State.passNotice_holdsAlerts running ..) _)
  rw [State.allocationPass_eq]
  split
  · exact notices.trans (State.raiseFault_holdsAlerts (notices.running starting) rfl _)
  · exact notices

/-- The passes that end a start-up raise no severe fault, and hold what they raise (R186). -/
theorem State.startPasses_holdsAlerts : s.HoldsAlerts s.startPasses := by
  have counted : s.HoldsAlerts s.recomputeDemand := .of_eq rfl rfl
  have derived : s.HoldsAlerts s.recomputeDemand.derivationPass :=
    counted.trans (State.derivationPass_holdsAlerts starting)
  unfold State.startPasses
  exact derived.trans (State.allocationPass_holdsAlerts (derived.running starting))

end holds

/-! ### Raises once a start-up is over (R182, R183) -/

/-- From `s` to `t` raises have gone into the capture: none is held, and the details of a severe fault stand. -/
structure State.Captures (s t : State) : Prop where
  startup : t.startup = s.startup
  held : t.faults.held = s.faults.held
  severe : s.faults.severeSeen = true → t.faults.severeSeen = true ∧ t.faults.record = s.faults.record

theorem State.Captures.of_eq {s t : State} (startup : t.startup = s.startup) (faults : t.faults = s.faults) :
    s.Captures t := ⟨startup, by rw [faults], fun seen => by rw [faults]; exact ⟨seen, rfl⟩⟩

theorem State.Captures.refl (s : State) : s.Captures s := .of_eq rfl rfl

theorem State.Captures.trans {s t u : State} (h : s.Captures t) (k : t.Captures u) : s.Captures u := by
  refine ⟨k.startup.trans h.startup, k.held.trans h.held, fun seen => ?_⟩
  obtain ⟨seen', record⟩ := h.severe seen
  obtain ⟨seen'', record'⟩ := k.severe seen'
  exact ⟨seen'', record'.trans record⟩

theorem FaultCapture.take_held (c : FaultCapture) (f : FaultKind) (n : Nat) (time : HallTime) :
    (c.take f n time).1.held = c.held := by
  unfold FaultCapture.take
  repeat' split
  all_goals rfl

/-- A raise sets SEVERE_SEEN when it is severe, and clears nothing (R182). -/
theorem FaultCapture.take_severeSeen (c : FaultCapture) (f : FaultKind) (n : Nat) (time : HallTime) :
    (c.take f n time).1.severeSeen = (c.severeSeen || f.severe) := by
  unfold FaultCapture.take
  split
  · next severe =>
    rw [severe, Bool.or_true]
    split
    · next seen => exact seen
    · rfl
  · next alert =>
    rw [Bool.not_eq_true] at alert
    rw [alert, Bool.or_false]
    split <;> rfl

/-- With SEVERE_SEEN set no raise changes the details (R182). -/
theorem FaultCapture.take_record {c : FaultCapture} (seen : c.severeSeen = true) (f : FaultKind) (n : Nat)
    (time : HallTime) : (c.take f n time).1.record = c.record := by
  unfold FaultCapture.take
  split
  · rw [seen]
  · rw [seen, Bool.or_true, Bool.true_or, if_pos rfl]

/-- The first severe raise latches its details (R182). -/
theorem FaultCapture.take_record_of_severe {c : FaultCapture} (unseen : c.severeSeen = false) {f : FaultKind}
    (severe : f.severe = true) (n : Nat) (time : HallTime) : (c.take f n time).1.record = some ⟨f, n, time⟩ := by
  unfold FaultCapture.take
  rw [if_pos severe, if_neg (by simp [unseen])]

/-- A raise takes its fault into the capture, and then the NOTICE_OVERFLOW that its own notice may raise (R174, R183). -/
theorem State.raiseNow_faults (s : State) (f : FaultKind) (n : Nat) :
    (s.raiseNow f n).faults = (s.faults.take f n s.session.clock).1 ∨
      (s.raiseNow f n).faults =
        ((s.faults.take f n s.session.clock).1.take .noticeOverflow 3 s.session.clock).1 := by
  rw [State.raiseNow_eq]
  dsimp only
  split
  · split
    · exact .inr rfl
    · exact .inl (State.offer_faults ..)
  · exact .inl rfl

theorem State.raiseNow_severeSeen (s : State) (f : FaultKind) (n : Nat) :
    (s.raiseNow f n).faults.severeSeen = (s.faults.severeSeen || f.severe) := by
  rcases s.raiseNow_faults f n with faults | faults <;> rw [faults]
  · exact FaultCapture.take_severeSeen ..
  · rw [FaultCapture.take_severeSeen, FaultCapture.take_severeSeen]
    exact Bool.or_false _

theorem State.raiseNow_record_of_severe {s : State} (unseen : s.faults.severeSeen = false) {f : FaultKind}
    (severe : f.severe = true) (n : Nat) : (s.raiseNow f n).faults.record = some ⟨f, n, s.session.clock⟩ := by
  rcases s.raiseNow_faults f n with faults | faults <;> rw [faults]
  · exact FaultCapture.take_record_of_severe unseen severe ..
  · rw [FaultCapture.take_record (by simp [FaultCapture.take_severeSeen, severe]),
      FaultCapture.take_record_of_severe unseen severe]

theorem State.raiseNow_captures (s : State) (f : FaultKind) (n : Nat) : s.Captures (s.raiseNow f n) := by
  refine ⟨(s.raiseNow_reports f n).startup, ?_, fun seen => ⟨by simp [State.raiseNow_severeSeen, seen], ?_⟩⟩
  · rcases s.raiseNow_faults f n with faults | faults <;> rw [faults] <;> simp only [FaultCapture.take_held]
  · rcases s.raiseNow_faults f n with faults | faults <;> rw [faults]
    · exact FaultCapture.take_record seen ..
    · rw [FaultCapture.take_record (by simp [FaultCapture.take_severeSeen, seen]), FaultCapture.take_record seen]

theorem State.foldl_captures {α : Type} {f : State → α → State} {s : State} (done : s.startup = .done)
    (hf : ∀ (u : State) (a : α), u.startup = .done → u.Captures (f u a)) (l : List α) : s.Captures (l.foldl f s) := by
  induction l generalizing s with
  | nil => exact .refl s
  | cons a rest ih =>
    have first := hf s a done
    exact first.trans (ih (first.startup.trans done))

/-- Once a start-up is over a raise is held no more (R186). -/
theorem State.raiseFault_of_done {s : State} (done : s.startup = .done) (f : FaultKind) (n : Nat) :
    s.raiseFault f n = s.raiseNow f n := by
  unfold State.raiseFault
  rw [if_neg (by simp [State.starting, done])]

theorem State.notify_captures {s : State} (done : s.startup = .done) (k : NoticeKind) (a b c d : Nat) :
    s.Captures (s.notify k a b c d) := by
  have offered : s.Captures (s.offerAll k.ports ⟨k, s.session.clock, [a, b, c, d]⟩).1 :=
    .of_eq (State.offerAll_reports ..).startup (State.offerAll_faults ..)
  refine offered.trans (State.foldl_captures (offered.startup.trans done) (fun u p running => ?_) _)
  rw [State.raiseFault_of_done running]
  exact u.raiseNow_captures _ _

/-- A list of faults raised one after another. -/
def State.raiseAll (s : State) (l : List (FaultKind × Nat)) : State := l.foldl (fun v f => v.raiseFault f.1 f.2) s

theorem State.raiseAll_reports (s : State) (l : List (FaultKind × Nat)) : s.Reports (s.raiseAll l) :=
  State.foldl_reports _ (fun u (f : FaultKind × Nat) => u.raiseFault_reports f.1 f.2) l s

theorem State.raiseAll_captures {s : State} (done : s.startup = .done) (l : List (FaultKind × Nat)) :
    s.Captures (s.raiseAll l) := by
  refine State.foldl_captures done (fun u f running => ?_) l
  rw [State.raiseFault_of_done running]
  exact u.raiseNow_captures _ _

/-- Alerts alone leave SEVERE_SEEN clear (R182). -/
theorem State.raiseAll_severeSeen {s : State} (done : s.startup = .done) {l : List (FaultKind × Nat)}
    (alerts : ∀ f ∈ l, f.1.severe = false) : (s.raiseAll l).faults.severeSeen = s.faults.severeSeen := by
  induction l generalizing s with
  | nil => rfl
  | cons f rest ih =>
    obtain ⟨alert, others⟩ := List.forall_mem_cons.mp alerts
    have first : (s.raiseFault f.1 f.2).faults.severeSeen = s.faults.severeSeen := by
      rw [State.raiseFault_of_done done, State.raiseNow_severeSeen, alert, Bool.or_false]
    exact (ih ((s.raiseFault_reports f.1 f.2).startup.trans done) others).trans first

/-- The state with no raise held. -/
def State.unheld (s : State) : State := { s with faults := { s.faults with held := [] } }

/-- The held faults are raised as any other, for the start-up is over (R186). -/
theorem State.raiseHeld_eq {s : State} (done : s.startup = .done) : s.raiseHeld = s.unheld.raiseAll s.faults.held := by
  have each (l : List (FaultKind × Nat)) {u : State} (running : u.startup = .done) :
      l.foldl (fun v f => v.raiseNow f.1 f.2) u = u.raiseAll l := by
    induction l generalizing u with
    | nil => rfl
    | cons f rest ih =>
      have first := State.raiseFault_of_done running f.1 f.2
      show rest.foldl _ (u.raiseNow f.1 f.2) = (u.raiseFault f.1 f.2).raiseAll rest
      rw [first]
      exact ih ((u.raiseNow_reports f.1 f.2).startup.trans running)
  exact each s.faults.held done

end Sys2Proof.Machine
end

section
/-! SUPPORT. Scope, what a start-up and a reset leave (R185 to R189): the volatile items at their reset values, the retained
groups at their defaults after a cold start, and what the passes that end a start-up keep of them. -/

namespace Sys2Proof.Machine

/-! ### The failed group (R185, R186) -/

theorem Retention.failedGroup_eq_none {r : Retention} :
    r.failedGroup = none ↔ r.marker = true ∧ ∀ g, r.intact.get g = true := by
  unfold Retention.failedGroup
  split
  · next set =>
    rw [Option.map_eq_none_iff, ← Fin.find?_eq_find?_finRange, Fin.find?_eq_none_iff]
    simp [set]
  · next clear => simp [clear]

/-- The failed group is 0 with the marker clear, and else the lowest one whose word fails. -/
theorem Retention.failedGroup_eq_some {r : Retention} {g : Nat} :
    r.failedGroup = some g ↔ (g = 0 ∧ r.marker = false) ∨
      (r.marker = true ∧ ∃ k : Fin 10, g = k.val + 1 ∧ r.intact.get k = false ∧ ∀ j < k, r.intact.get j = true) := by
  unfold Retention.failedGroup
  split
  · next set =>
    rw [Option.map_eq_some_iff, ← Fin.find?_eq_find?_finRange]
    simp only [Fin.find?_eq_some_iff]
    constructor
    · rintro ⟨k, ⟨fails, lowest⟩, rfl⟩
      exact .inr ⟨set, k, rfl, by simpa using fails, fun j below => by simpa using lowest j below⟩
    · rintro (⟨-, clear⟩ | ⟨-, k, rfl, fails, lowest⟩)
      · exact nomatch set.symm.trans clear
      · exact ⟨k, ⟨by simpa using fails, fun j below => by simpa using lowest j below⟩, rfl⟩
  · next clear =>
    rw [Bool.not_eq_true] at clear
    simp only [Option.some.injEq, clear, and_true, Bool.false_eq_true, false_and, or_false]
    exact eq_comm

/-! ### The reset of the volatile state (R186, R188) -/

theorem Link.volatileReset_pendingCount (k : Link) : k.volatileReset.pendingCount = 105 := by
  simp [Link.volatileReset, Link.reset, Link.pendingCount, Table.rows_replicate]

/-- A state is a volatile reset of `s` when its blocks are those that the reset leaves. -/
theorem State.volatileResetOf.of_blocks {s t : State} (booth : t.booth = s.booth.volatileReset)
    (programs : t.programs = s.programs.map Program.volatileReset)
    (planner : t.planner = s.planner.volatileReset (s.programs.map Program.volatileReset))
    (link : t.link = s.link.volatileReset) (registry : t.registry = s.registry.volatileReset) (hires : t.hires = s.hires)
    (settlement : t.settlement = s.settlement)
    (session : t.session = { s.session with
      state := .setup
      restartCount := t.session.restartCount
      restartCause := t.session.restartCause
      tickSince := t.session.tickSince
      tickLost := t.session.tickLost })
    (ports : t.ports = .reset s.ports.wire) (faults : t.faults = .reset) (starting : t.startup ≠ .done) :
    s.volatileResetOf t where
  desks d := by rw [State.desk, booth]; exact Table.get_replicate ..
  requests b := by rw [State.request, booth]; exact Table.get_replicate ..
  booth := by rw [booth]; exact ⟨rfl, rfl⟩
  programs p := by rw [State.program, programs, Table.get_map]; rfl
  planner := by rw [planner]; exact ⟨rfl, rfl, rfl, rfl, rfl, rfl⟩
  link := by rw [link]; exact ⟨rfl, s.link.volatileReset_pendingCount, rfl, rfl, rfl, rfl⟩
  registry := registry
  hires := hires
  settlement := settlement
  session := by rw [session]; exact ⟨rfl, rfl, rfl, rfl, rfl, rfl⟩
  ports := by
    refine ⟨fun p => ?_, by rw [ports]; rfl, by rw [ports]; rfl⟩
    unfold State.port
    rw [ports]
    cases p <;> rfl
  faults := faults
  starting := by simpa [State.starting] using starting

/-! ### The retained domain (R185) -/

/-- From `s` to `t` the retained groups stand, and of Session and Clock all but the tick watch. -/
structure State.KeepsRetained (s t : State) : Prop where
  registry : t.registry = s.registry
  hires : t.hires = s.hires
  settlement : t.settlement = s.settlement
  programs : ∀ p, (t.program p).config = (s.program p).config ∧ (t.program p).outage = (s.program p).outage ∧
    (t.program p).outageBase = (s.program p).outageBase
  configs : t.booth.configs = s.booth.configs
  interpreters : t.booth.interpreters = s.booth.interpreters
  budgets : t.planner.budgets = s.planner.budgets
  session : t.session = { s.session with tickSince := t.session.tickSince, tickLost := t.session.tickLost }

theorem State.KeepsRetained.trans {s t u : State} (h : s.KeepsRetained t) (k : t.KeepsRetained u) : s.KeepsRetained u where
  registry := k.registry.trans h.registry
  hires := k.hires.trans h.hires
  settlement := k.settlement.trans h.settlement
  programs p := by
    obtain ⟨config, outage, base⟩ := h.programs p
    obtain ⟨config', outage', base'⟩ := k.programs p
    exact ⟨config'.trans config, outage'.trans outage, base'.trans base⟩
  configs := k.configs.trans h.configs
  interpreters := k.interpreters.trans h.interpreters
  budgets := k.budgets.trans h.budgets
  session := by rw [k.session, h.session]

theorem State.Reports.keepsRetained {s t : State} (h : s.Reports t) : s.KeepsRetained t := by
  rw [show t = _ from h]
  exact ⟨rfl, rfl, rfl, fun _ => ⟨rfl, rfl, rfl⟩, rfl, rfl, rfl, rfl⟩

theorem State.atDefaults.of_keepsRetained {s t : State} (h : s.KeepsRetained t) (d : s.atDefaults) : t.atDefaults where
  registry := by rw [h.registry]; exact d.registry
  hires := h.hires.trans d.hires
  settlement := h.settlement.trans d.settlement
  programs p := by
    obtain ⟨config, outage, base⟩ := h.programs p
    rw [config, outage, base]
    exact d.programs p
  booths := h.configs.trans d.booths
  banks := by rw [h.budgets, h.registry]; exact d.banks
  interpreters := h.interpreters.trans d.interpreters
  clock := by rw [h.session]; exact d.clock
  day := by rw [h.session]; exact d.day

/-- The volatile reset of a state at its defaults is at its defaults (R186). -/
theorem State.atDefaults.volatileReset {s : State} (d : s.atDefaults) : s.volatileReset.atDefaults where
  registry := by
    obtain ⟨receivers, slots⟩ := d.registry
    refine ⟨?_, slots⟩
    show s.registry.receivers.map _ = []
    rw [receivers]
    rfl
  hires := d.hires
  settlement := d.settlement
  programs p := by
    have kept := d.programs p
    unfold State.program at kept ⊢
    rwa [show s.volatileReset.programs = s.programs.map Program.volatileReset from rfl, Table.get_map]
  booths := d.booths
  banks := d.banks
  interpreters := by
    show s.booth.interpreters.map _ = []
    rw [d.interpreters]
    rfl
  clock := d.clock
  day := d.day

/-! ### The outcome of the check (R186 step 2, R187) -/

/-- With nothing failed, the check counts a power-on and clears the clock's validity (R159, R186). -/
theorem State.checkOutcome_none (s : State) : s.checkOutcome none = { s with
    session := { s.session with
      restartCount := s.session.restartCount + 1
      restartCause := .powerOn
      valid := false }
    retention := (s.rewrite 8).retention } := by
  have words : (s.retention.intact.set 8 true).set 8 true = s.retention.intact.set 8 true := Table.set_set ..
  show { s with session := _, retention := { s.retention with intact := (s.retention.intact.set 8 true).set 8 true } } = _
  rw [words]
  rfl

section cold
variable (s : State) (g : Nat)

/-- A cold start replaces every retained group by its default (R187). -/
theorem State.checkOutcome_atDefaults : (s.checkOutcome (some g)).atDefaults where
  registry := ⟨rfl, rfl⟩
  hires := rfl
  settlement := rfl
  programs p := by
    have record : (s.checkOutcome (some g)).program p = Program.default p := Table.get_ofFn ..
    rw [record]
    exact ⟨rfl, rfl, rfl⟩
  booths := rfl
  banks := ⟨fun k => Table.get_ofFn .., rfl⟩
  interpreters := rfl
  clock := ⟨rfl, rfl, rfl, rfl⟩
  day := ⟨rfl, rfl, rfl⟩

theorem State.checkOutcome_wordsAgree : (s.checkOutcome (some g)).wordsAgree := by
  have words : ∀ b ∈ (Table.replicate 10 true).rows, b = true := fun b here => List.eq_of_mem_replicate here
  exact Table.forall_rows_set words rfl

end cold

theorem State.checkOutcome_faults (s : State) (x : Option Nat) : (s.checkOutcome x).faults = s.faults := by
  unfold State.checkOutcome
  dsimp only
  split <;> rfl

/-! ### The passes that end a start-up (R186 steps 3 to 5) -/

/-- The passes write the program records, the desks, the planner's part of the plan, the link, the ports and the capture. -/
theorem State.startPasses_frame (s : State) : s.startPasses = { s with
    programs := s.startPasses.programs
    booth := { s.booth with desks := s.startPasses.booth.desks }
    planner := { s.planner with slotsInUse := s.startPasses.planner.slotsInUse, lastPass := s.startPasses.planner.lastPass }
    link := s.startPasses.link
    ports := s.startPasses.ports
    faults := s.startPasses.faults } := by
  have derived := s.recomputeDemand.derivationPass_frame
  have allocated := s.recomputeDemand.derivationPass.allocationPass_frame
  unfold State.startPasses
  rw [allocated, derived]
  rfl

theorem State.startPasses_program (s : State) (p : Prog) : (s.startPasses.program p).config = (s.program p).config ∧
    (s.startPasses.program p).outage = (s.program p).outage ∧
    (s.startPasses.program p).outageBase = (s.program p).outageBase := by
  have counted : s.recomputeDemand.program p = { s.program p with demand := s.demandOf p } := Table.get_mapIdx ..
  unfold State.startPasses
  rw [State.allocationPass_program, passProgram, State.derivationPass_program_eq, counted]
  exact ⟨rfl, rfl, rfl⟩

/-- The state at R186's step 6: the passes run, the marker set, the link IDLE and STARTING clear. -/
def State.readied (s : State) : State := s.startPasses.complete

theorem State.readied_frame (s : State) : s.readied = { s with
    startup := .done
    retention := { s.retention with marker := true }
    programs := s.readied.programs
    booth := { s.booth with desks := s.readied.booth.desks }
    planner := { s.planner with slotsInUse := s.readied.planner.slotsInUse, lastPass := s.readied.planner.lastPass }
    link := s.readied.link
    ports := s.readied.ports
    faults := s.readied.faults } := by
  have frame := s.startPasses_frame
  unfold State.readied
  generalize s.startPasses = u at frame ⊢
  rw [frame]
  rfl

theorem State.readied_startup (s : State) : s.readied.startup = .done := rfl

theorem State.readied_phase (s : State) : s.readied.link.phase = .idle := by
  rw [State.readied, State.complete, State.updateLink_link, Link.watched_eq]

theorem State.complete_faults (s : State) : s.complete.faults = s.faults := rfl

theorem State.readied_faults {s : State} (starting : s.startup ≠ .done) :
    ∃ more, s.readied.faults = { s.faults with held := s.faults.held ++ more } ∧ ∀ f ∈ more, f.1.severe = false := by
  rw [State.readied, State.complete_faults]
  exact (State.startPasses_holdsAlerts starting).faults

theorem State.complete_program (s : State) (p : Prog) : s.complete.program p = s.program p := rfl

theorem State.readied_demand (s : State) (p : Prog) : (s.readied.program p).demand = s.demandOf p := by
  have ledger := s.startPasses_ledger
  rw [State.readied]
  generalize s.startPasses.complete = u at ledger ⊢
  exact congrFun (congrArg Ledger.demand ledger) p

theorem State.readied_program (s : State) (p : Prog) : s.readied.program p = s.startPasses.program p :=
  State.complete_program ..

theorem State.readied_keepsRetained (s : State) : s.KeepsRetained s.readied := by
  have programs (p : Prog) := s.startPasses_program p
  simp only [← State.readied_program] at programs
  have frame := s.readied_frame
  generalize s.readied = u at frame programs ⊢
  rw [frame] at programs ⊢
  exact ⟨rfl, rfl, rfl, programs, rfl, rfl, rfl, rfl⟩

theorem State.restartTickWatch_keepsRetained (s : State) : s.KeepsRetained s.restartTickWatch :=
  ⟨rfl, rfl, rfl, fun _ => ⟨rfl, rfl, rfl⟩, rfl, rfl, rfl, rfl⟩

/-! ### The check's completion (R186, R187) -/

/-- The power-on start-up check runs (R186, R188). -/
theorem State.checkRuns_iff (s : State) : (s.operating && s.startup == .checking) = true ↔
    s.powered = true ∧ s.resetAsserted = false ∧ s.startup = .checking := by
  simp [State.operating, and_assoc]

/-- The state in which a completed check raises the held faults: its outcome, the passes, and the tick watch restarted. -/
def State.checked (s : State) (failed : Option Nat) : State := (s.checkOutcome failed).readied.restartTickWatch

section checked
variable (s : State) (x : Option Nat)

theorem State.checked_startup : (s.checked x).startup = .done := rfl

theorem State.checked_phase : (s.checked x).link.phase = .idle := by
  rw [State.checked, State.restartTickWatch_link, State.readied_phase]

theorem State.checked_retention : (s.checked x).retention = { (s.checkOutcome x).retention with marker := true } := by
  rw [State.checked, State.restartTickWatch_retention, State.readied_frame]

theorem State.checked_bank : (s.checked x).planner.bank = s.planner.bank := by
  rw [State.checked, State.restartTickWatch_planner, State.readied_frame]
  cases x <;> rfl

theorem State.checked_session :
    (s.checked x).session = { (s.checkOutcome x).session with tickSince := s.now, tickLost := false } := by
  rw [State.checked, State.restartTickWatch_session, State.readied_frame]
  cases x <;> rfl

theorem State.checked_keepsRetained : (s.checkOutcome x).KeepsRetained (s.checked x) :=
  (s.checkOutcome x).readied_keepsRetained.trans (State.restartTickWatch_keepsRetained _)

theorem State.checked_demand (p : Prog) : ((s.checked x).program p).demand = (s.checked x).demandOf p := by
  have counted : (s.checked x).demandOf p = (s.checkOutcome x).demandOf p := by
    rw [State.demandOf, (s.checked_keepsRetained x).hires, State.demandOf]
  rw [counted, State.checked, State.program, State.restartTickWatch_programs]
  exact (s.checkOutcome x).readied_demand p

theorem State.checked_faults (starting : s.startup ≠ .done) :
    ∃ more, (s.checked x).faults = { s.faults with held := s.faults.held ++ more } ∧
      ∀ f ∈ more, f.1.severe = false := by
  have starting' : (s.checkOutcome x).startup ≠ .done := by rwa [State.checkOutcome_startup]
  rw [State.checked, State.restartTickWatch_faults, ← State.checkOutcome_faults s x]
  exact State.readied_faults starting'

end checked

/-! ### The raises that end a start-up (R186 step 6) -/

section reports
variable {s t : State} (h : s.Reports t)
include h

theorem State.Reports.retention : t.retention = s.retention := by rw [show t = _ from h]
theorem State.Reports.link : t.link = s.link := by rw [show t = _ from h]
theorem State.Reports.planner : t.planner = s.planner := by rw [show t = _ from h]
theorem State.Reports.demandOf (p : Prog) : t.demandOf p = s.demandOf p := by rw [show t = _ from h]; rfl

end reports

theorem State.unheld_reports (s : State) : s.Reports s.unheld := rfl

theorem State.raiseRetentionLost_none (s : State) : s.raiseRetentionLost none = s := rfl

theorem State.raiseRetentionLost_reports (s : State) (x : Option Nat) : s.Reports (s.raiseRetentionLost x) := by
  cases x with
  | none => exact .refl s
  | some g => exact s.raiseNow_reports .retentionLost g

theorem State.raiseRetentionLost_captures (s : State) (x : Option Nat) : s.Captures (s.raiseRetentionLost x) := by
  cases x with
  | none => exact .refl s
  | some g => exact s.raiseNow_captures .retentionLost g

theorem State.started_reports (s : State) : s.Reports s.started := s.notify_reports ..

/-- The state with its held faults raised, from one whose start-up is over. -/
def State.raised (s : State) : State := s.unheld.raiseAll s.faults.held

theorem State.raised_reports (s : State) : s.Reports s.raised := s.unheld_reports.trans (s.unheld.raiseAll_reports _)

theorem State.raised_held {s : State} (done : s.startup = .done) : s.raised.faults.held = [] :=
  (State.raiseAll_captures (s := s.unheld) done _).held

/-- The end of a start-up's step 6: the held faults, the fault of a cold start and STARTED (R186, R187). -/
theorem State.ended_reports (s : State) (x : Option Nat) : s.Reports (s.raised.raiseRetentionLost x).started :=
  (s.raised_reports.trans (State.raiseRetentionLost_reports _ x)).trans (State.started_reports _)

theorem State.ended_captures {s : State} (done : s.startup = .done) (x : Option Nat) :
    s.raised.Captures (s.raised.raiseRetentionLost x).started := by
  have first := s.raised.raiseRetentionLost_captures x
  have done' : s.raised.startup = .done := s.raised_reports.startup.trans done
  exact first.trans (State.notify_captures (first.startup.trans done') ..)

/-- STARTED carries the restart cause and the restart count (R186). -/
theorem State.ended_of_none (s : State) : (s.raised.raiseRetentionLost none).started =
    s.raised.notify .started s.session.restartCause.code s.session.restartCount.toNat 0 0 := by
  rw [State.raiseRetentionLost_none, State.started, s.raised_reports.session]

theorem State.ended_of_some {s : State} (done : s.startup = .done) (g : Nat) :
    (s.raised.raiseRetentionLost (some g)).started =
      (s.raised.raiseFault .retentionLost g).notify .started s.session.restartCause.code s.session.restartCount.toNat 0 0 := by
  rw [State.started, ((State.raiseRetentionLost_reports _ _).session.trans s.raised_reports.session),
    State.raiseFault_of_done (s.raised_reports.startup.trans done)]
  rfl

/-- RETENTION_LOST sets SEVERE_SEEN, and latches its details where no severe fault came before it (R182, R187). -/
theorem State.ended_severe {s : State} (done : s.startup = .done) (g : Nat) :
    (s.raised.raiseRetentionLost (some g)).started.faults.severeSeen = true ∧
      (s.faults.severeSeen = false → (∀ f ∈ s.faults.held, f.1.severe = false) →
        (s.raised.raiseRetentionLost (some g)).started.faults.record = some ⟨.retentionLost, g, s.session.clock⟩) := by
  have seen : (s.raised.raiseNow .retentionLost g).faults.severeSeen = true := by
    rw [State.raiseNow_severeSeen]
    exact Bool.or_true _
  have done' := (s.raised.raiseNow_reports .retentionLost g).startup.trans (s.raised_reports.startup.trans done)
  obtain ⟨seen', record⟩ := (State.notify_captures done' .started _ _ _ _).severe seen
  refine ⟨seen', fun unseen alerts => record.trans ?_⟩
  have clear : s.raised.faults.severeSeen = false := (State.raiseAll_severeSeen (s := s.unheld) done alerts).trans unseen
  rw [State.raiseNow_record_of_severe clear rfl, s.raised_reports.session]

/-- A check that does not run is not completed (log entries 14 and 25). -/
theorem exec_startupCheckComplete_idle {s : State}
    (h : s.powered = false ∨ s.resetAsserted = true ∨ s.startup ≠ .checking) : exec .startupCheckComplete s = .next s :=
  congrArg _ (if_neg fun runs => by
    obtain ⟨powered, released, checking⟩ := s.checkRuns_iff.mp runs
    simp [powered, released, checking] at h)

theorem exec_startupCheckComplete {s : State} (powered : s.powered = true) (released : s.resetAsserted = false)
    (checking : s.startup = .checking) : exec .startupCheckComplete s =
      .next ((s.checked s.retention.failedGroup).raised.raiseRetentionLost s.retention.failedGroup).started := by
  have held := State.raiseHeld_eq (s.checked_startup s.retention.failedGroup)
  have running : (s.operating && s.startup == .checking) = true := by
    rw [State.checkRuns_iff]
    exact ⟨powered, released, checking⟩
  show Host.Outcome.next _ = _
  rw [if_pos running, State.raised, ← held]
  rfl

/-- The state from which a release of RESET_N runs the passes (R188). -/
def State.released (s : State) : State := State.readLines { s with resetAsserted := false }

theorem State.released_startup (s : State) : s.released.startup = s.startup := rfl

theorem exec_resetRelease {s : State} (asserted : s.resetAsserted = true) (powered : s.powered = true)
    (past : s.startup ≠ .checking) : exec .resetRelease s =
      .next (s.released.readied.raised.raiseRetentionLost none).started := by
  have held := State.raiseHeld_eq s.released.readied_startup
  show Host.Outcome.next _ = _
  rw [if_pos asserted, State.raiseRetentionLost_none, State.raised, ← held]
  unfold State.released
  dsimp only
  rw [if_pos powered]
  cases startup : s.startup with
  | checking => exact absurd startup past
  | external => rfl
  | done => rfl

end Sys2Proof.Machine
end

section
/-! SUPPORT. Scope, the supplies, RESET_N and the ends of a start-up (R159, R185 to R189): each event as an equation, the resets
by their blocks, the cuts of a start-up, and its end by the check and by the release of RESET_N. -/

namespace Sys2Proof.Machine

/-! ### Power and RESET_N (R186, R188, R189) -/

section supplies
variable {s : State}

/-- A loss of main power that cuts no start-up short (R155, R189). -/
theorem exec_mainPowerLoss_plain (h : s.powered = false ∨ s.resetAsserted = true ∨ s.startup ≠ .checking) :
    exec .mainPowerLoss s = .next { s with powered := false, faults := { s.faults with held := [] } } := by
  have quiet : ¬ (s.operating && s.startup == .checking) = true := fun runs => by
    obtain ⟨powered, released, checking⟩ := s.checkRuns_iff.mp runs
    simp [powered, released, checking] at h
  show Host.Outcome.next _ = _
  rw [if_neg quiet]

/-- The state that a loss of main power leaves, from the one that a cut leaves. -/
def State.darkened (s : State) : State := { s with powered := false, faults := { s.faults with held := [] } }

theorem exec_mainPowerLoss_cut (powered : s.powered = true) (released : s.resetAsserted = false)
    (checking : s.startup = .checking) : exec .mainPowerLoss s = .next (s.cutStartUp false).darkened := by
  have running : (s.operating && s.startup == .checking) = true := s.checkRuns_iff.mpr ⟨powered, released, checking⟩
  show Host.Outcome.next _ = _
  rw [if_pos running]
  rfl

theorem State.darkened_keepsRetained (s : State) : s.KeepsRetained s.darkened :=
  ⟨rfl, rfl, rfl, fun _ => ⟨rfl, rfl, rfl⟩, rfl, rfl, rfl, rfl⟩

theorem exec_externalReset (powered : s.powered = true) (released : s.resetAsserted = false) :
    exec .externalReset s = .next { s.externalReset with resetAsserted := true } := by
  show Host.Outcome.next _ = _
  rw [if_neg (by simp [released]), if_pos powered]

/-- Without main power RESET_N changes the pin alone (log entry 25). -/
theorem exec_externalReset_off (off : s.powered = false) : exec .externalReset s = .next { s with resetAsserted := true } := by
  show Host.Outcome.next _ = _
  split
  · next asserted => rw [← asserted]
  · rw [if_neg (by simp [off])]

theorem exec_resetRelease_off (asserted : s.resetAsserted = true) (off : s.powered = false) :
    exec .resetRelease s = .next { s with resetAsserted := false } := by
  show Host.Outcome.next _ = _
  rw [if_pos asserted]
  dsimp only
  rw [if_neg (by simp [off])]

/-- The release of RESET_N over a power-on start-up: its check begins again (R188, R189). -/
theorem exec_resetRelease_checking (asserted : s.resetAsserted = true) (powered : s.powered = true)
    (checking : s.startup = .checking) : exec .resetRelease s = .next { s with
      resetAsserted := false
      checkSince := s.now
      planner := { s.planner with bank := s.planner.lines, candidate := none } } := by
  show Host.Outcome.next _ = _
  rw [if_pos asserted]
  dsimp only
  rw [if_pos powered, checking]
  rfl

theorem State.externalReset_of_past (past : s.startup ≠ .checking) : s.externalReset =
    { s.volatileReset.setRestart (s.session.restartCount + 1) .external with startup := .external } := by
  unfold State.externalReset
  cases startup : s.startup with
  | checking => exact absurd startup past
  | external => rfl
  | done => rfl

theorem State.externalReset_of_checking (checking : s.startup = .checking) :
    s.externalReset = (s.cutStartUp true).volatileReset := by
  unfold State.externalReset
  rw [checking]

end supplies

/-! ### Every volatile item at its reset value (R186, R188) -/

/-- Power-on resets every volatile item (R186). -/
theorem powerOn_volatileResetOf (s : State) : s.volatileResetOf
    { ({ s with now := 0, powered := true, startup := .checking, checkSince := 0 } : State).volatileReset with
      session := { s.session with state := .setup, tickSince := 0, tickLost := false } } :=
  .of_blocks rfl rfl rfl rfl rfl rfl rfl rfl rfl rfl nofun

/-- The state that an assertion of RESET_N leaves when it cuts a start-up short, from the one that the cut leaves (R188,
R189). -/
def State.asserted (s : State) : State := { s.volatileReset with resetAsserted := true }

theorem State.asserted_volatileResetOf {s : State} (starting : s.startup ≠ .done) : s.volatileResetOf s.asserted :=
  .of_blocks rfl rfl rfl rfl rfl rfl rfl rfl rfl rfl starting

theorem State.asserted_keepsRetained (s : State) : s.volatileReset.KeepsRetained s.asserted :=
  ⟨rfl, rfl, rfl, fun _ => ⟨rfl, rfl, rfl⟩, rfl, rfl, rfl, rfl⟩

/-- A cut by RESET_N leaves nothing of the check, or a cold start (R189). -/
theorem State.cutStartUp_reset_cases (s : State) : s.cutStartUp true = { s with startUpsCut := s.startUpsCut + 1 } ∨
    ∃ g, s.retention.failedGroup = some g ∧
      s.cutStartUp true = State.checkOutcome { s with startUpsCut := s.startUpsCut + 1 } (some g) := by
  cases failed : s.retention.failedGroup with
  | none => exact .inl (State.cutStartUp_warm s failed)
  | some g => exact (s.cutStartUp_cases true).imp_right fun cold => ⟨g, rfl, failed ▸ cold⟩

/-- The reset of an assertion of RESET_N that cuts none short counts a restart (R159, R188). -/
theorem State.externalReset_volatileResetOf (s : State) : s.volatileResetOf
    { s.volatileReset.setRestart (s.session.restartCount + 1) .external with startup := .external, resetAsserted := true } :=
  .of_blocks rfl rfl rfl rfl rfl rfl rfl rfl rfl rfl nofun

/-! ### What the events of the supplies and of RESET_N leave (R186 to R189) -/

/-- A loss of main power while a start-up check runs leaves the retained domain as it is, or with the check's outcome
(R189). -/
theorem mainPowerLoss_cuts {s u : State} (powered : s.powered = true) (released : s.resetAsserted = false)
    (checking : s.startup = .checking)
    (dark : u = { s with powered := false, faults := { s.faults with held := [] }, startUpsCut := s.startUpsCut + 1 }) :
    ∃ t, exec .mainPowerLoss s = .next t ∧ (t = u ∨
      (s.retention.failedGroup = none ∧ t = { u with
        session := { s.session with
          restartCount := s.session.restartCount + 1
          restartCause := .powerOn
          valid := false }
        retention := (s.rewrite 8).retention }) ∨
      (s.retention.failedGroup ≠ none ∧ t.atDefaults ∧ t.wordsAgree ∧ t.retention.marker = false ∧
        t.booth.desks = s.booth.desks ∧ t.session.state = s.session.state ∧ t.powered = false ∧ t.ports = s.ports ∧
        t.link = s.link ∧ t.faults = u.faults ∧ t.startUpsCut = u.startUpsCut ∧ t.startup = s.startup)) := by
  refine ⟨_, exec_mainPowerLoss_cut powered released checking, ?_⟩
  subst dark
  rcases s.cutStartUp_cases false with before | past
  · rw [before]
    exact .inl rfl
  · rw [past]
    cases failed : s.retention.failedGroup with
    | none =>
      rw [State.checkOutcome_none]
      exact .inr (.inl ⟨rfl, rfl⟩)
    | some g =>
      have cold := State.checkOutcome_atDefaults { s with startUpsCut := s.startUpsCut + 1 } g
      exact .inr (.inr ⟨nofun, cold.of_keepsRetained (State.darkened_keepsRetained _),
        State.checkOutcome_wordsAgree { s with startUpsCut := s.startUpsCut + 1 } g,
        rfl, rfl, rfl, rfl, rfl, rfl, rfl, rfl, rfl⟩)

/-- RESET_N asserted over a running start-up check: nothing of the check stands, or a cold start does (R188, R189). -/
theorem externalReset_cuts {s t : State} (checking : s.startup = .checking) (asserts : t = (s.cutStartUp true).asserted) :
    t.now = s.now ∧ t.powered = s.powered ∧ t.startup = .checking ∧ t.startUpsCut = s.startUpsCut + 1 ∧
      ((s.volatileResetOf t ∧ t.session = { s.session with state := .setup } ∧ t.retention = s.retention) ∨
        (s.retention.failedGroup ≠ none ∧ t.atDefaults ∧ t.wordsAgree ∧ t.retention.marker = false ∧
          ∃ u : State, u.atDefaults ∧ u.planner.lines = s.planner.lines ∧ u.link = s.link ∧
            u.ports.wire = s.ports.wire ∧ u.volatileResetOf t)) := by
  subst asserts
  have starting : s.startup ≠ .done := by simp [checking]
  rcases s.cutStartUp_reset_cases with cut | ⟨g, failed, cut⟩ <;> rw [cut]
  · exact ⟨rfl, rfl, checking, rfl, .inl ⟨.of_blocks rfl rfl rfl rfl rfl rfl rfl rfl rfl rfl starting, rfl, rfl⟩⟩
  · have cold := State.checkOutcome_atDefaults { s with startUpsCut := s.startUpsCut + 1 } g
    have words := State.checkOutcome_wordsAgree { s with startUpsCut := s.startUpsCut + 1 } g
    exact ⟨rfl, rfl, checking, rfl, .inr ⟨by simp [failed],
      cold.volatileReset.of_keepsRetained (State.asserted_keepsRetained _), words, rfl, _, cold, rfl, rfl, rfl,
      State.asserted_volatileResetOf starting⟩⟩

/-- What a completed check leaves, whatever its outcome (R186). -/
theorem startupCheckComplete_completes {s t : State} {x : Option Nat} (reports : (s.checked x).Reports t)
    (captures : (s.checked x).raised.Captures t) :
    t.startup = .done ∧ t.retention.marker = true ∧ t.link.phase = .idle ∧ t.faults.held = [] ∧
      t.session.tickSince = s.now ∧ t.session.tickLost = false ∧ t.session.valid = false ∧
      (∀ p, (t.program p).demand = t.demandOf p) ∧ t.planner.bank = s.planner.bank := by
  have valid : (s.checkOutcome x).session.valid = false := rfl
  have session := reports.session.trans (s.checked_session x)
  refine ⟨reports.startup, ?_, ?_, captures.held.trans (State.raised_held rfl), ?_, ?_, ?_, fun p => ?_, ?_⟩
  · rw [reports.retention, State.checked_retention]
  · rw [reports.link, State.checked_phase]
  · rw [session]
  · rw [session]
  · rw [session, valid]
  · rw [reports.program, reports.demandOf, State.checked_demand]
  · rw [reports.planner, State.checked_bank]

/-- A check that finds nothing failed keeps the retained domain and counts a power-on (R159, R186). -/
theorem startupCheckComplete_warm {s t : State} (ends : t = ((s.checked none).raised.raiseRetentionLost none).started) :
    t.hires = s.hires ∧ t.settlement = s.settlement ∧ t.registry = s.registry ∧
      t.booth.configs = s.booth.configs ∧ t.booth.interpreters = s.booth.interpreters ∧
      t.planner.budgets = s.planner.budgets ∧
      (∀ p, (t.program p).config = (s.program p).config ∧ (t.program p).outage = (s.program p).outage ∧
        (t.program p).outageBase = (s.program p).outageBase) ∧
      t.session = { s.session with
        restartCount := s.session.restartCount + 1
        restartCause := .powerOn
        valid := false
        tickSince := s.now
        tickLost := false } ∧
      t = (s.checked none).raised.notify .started 1 (s.session.restartCount + 1).toNat 0 0 := by
  have reports : (s.checked none).Reports t := ends ▸ (s.checked none).ended_reports none
  have kept := (s.checked_keepsRetained none).trans reports.keepsRetained
  have session := s.checked_session none
  rw [State.checkOutcome_none] at kept session
  refine ⟨kept.hires, kept.settlement, kept.registry, kept.configs, kept.interpreters, kept.budgets, kept.programs,
    reports.session.trans session, ?_⟩
  rw [ends, State.ended_of_none, session]
  rfl

/-- A check that finds a group failed makes a cold start and raises RETENTION_LOST behind the held faults (R187). -/
theorem startupCheckComplete_cold {s t : State} {g : Nat}
    (ends : t = ((s.checked (some g)).raised.raiseRetentionLost (some g)).started) :
    t.atDefaults ∧ t.wordsAgree ∧ t.session = { s.session with
        clock := ⟨0, 0⟩
        valid := false
        restartCount := 1
        restartCause := .coldStart
        dayNumber := 1
        counters := ⟨0, 0, 0, 0, 0, 0, 0, 0⟩
        summary := none
        tickSince := s.now
        tickLost := false } ∧
      t = ((s.checked (some g)).raised.raiseFault .retentionLost g).notify .started 3 1 0 0 := by
  have reports : (s.checked (some g)).Reports t := ends ▸ (s.checked (some g)).ended_reports (some g)
  have kept := (s.checked_keepsRetained (some g)).trans reports.keepsRetained
  have session := s.checked_session (some g)
  refine ⟨(s.checkOutcome_atDefaults g).of_keepsRetained kept, ?_, reports.session.trans session, ?_⟩
  · rw [State.wordsAgree, reports.retention, State.checked_retention]
    exact s.checkOutcome_wordsAgree g
  · rw [ends, State.ended_of_some (s.checked_startup _), session]
    rfl

/-- RETENTION_LOST is captured, and its details are latched where no severe fault came before it (R182, R187). -/
theorem startupCheckComplete_captures {s t : State} {g : Nat} (starting : s.startup ≠ .done)
    (ends : t = ((s.checked (some g)).raised.raiseRetentionLost (some g)).started) :
    t.faults.severeSeen = true ∧ (s.faults.severeSeen = false → (∀ f ∈ s.faults.held, f.1.severe = false) →
      t.faults.record = some ⟨.retentionLost, g, ⟨0, 0⟩⟩) := by
  obtain ⟨seen, record⟩ := State.ended_severe (s.checked_startup (some g)) g
  obtain ⟨more, faults, alerts'⟩ := s.checked_faults (some g) starting
  have clock : (s.checked (some g)).session.clock = ⟨0, 0⟩ := by
    rw [State.checked_session]
    rfl
  rw [faults, clock] at record
  rw [ends]
  exact ⟨seen, fun unseen alerts => record unseen fun f here => (List.mem_append.mp here).elim (alerts f) (alerts' f)⟩

/-- What the release of RESET_N leaves when it ends a start-up (R188). -/
theorem resetRelease_completes {s t : State} (reports : s.released.readied.Reports t) :
    t.resetAsserted = false ∧ t.startup = .done ∧ t.retention = { s.retention with marker := true } ∧
      t.link.phase = .idle ∧ t.planner.bank = s.planner.lines ∧ t.planner.candidate = none ∧
      (∀ p, (t.program p).demand = s.demandOf p) ∧ t.hires = s.hires ∧ t.settlement = s.settlement ∧
      t.registry = s.registry ∧ t.session = s.session := by
  have kept := s.released.readied_keepsRetained.trans reports.keepsRetained
  have frame := s.released.readied_frame
  refine ⟨?_, reports.startup, ?_, ?_, ?_, ?_, fun p => ?_, kept.hires, kept.settlement, kept.registry, ?_⟩
  · rw [show t = _ from reports, frame]
    rfl
  · rw [reports.retention, frame]
    rfl
  · rw [reports.link, State.readied_phase]
  · rw [reports.planner, frame]
    rfl
  · rw [reports.planner, frame]
    rfl
  · rw [reports.program, State.readied_demand]
    rfl
  · rw [reports.session, frame]
    rfl

end Sys2Proof.Machine

namespace Sys2Proof.Proofs
open Sys2Proof Sys2Proof.Machine

/-- Settles O60: the resets by their blocks (`State.volatileResetOf.of_blocks`), the cuts by what they leave
(`mainPowerLoss_cuts`, `externalReset_cuts`), and the ends of a start-up by the passes, which keep the retained domain and
hold their raises (`State.checked_keepsRetained`, `State.checked_faults`). -/
theorem powerAndResetKeepOrReplaceTheRetainedDomain : Obligations.PowerAndResetKeepOrReplaceTheRetainedDomain := by
  refine ⟨fun s => exec_mainPowerLoss_plain, fun s u => mainPowerLoss_cuts, fun s => ⟨fun off => ?_, fun on => ?_⟩,
    fun s => ?_, fun s powered released => ?_, fun s => ⟨fun asserted => ?_, fun off => ?_⟩,
    fun s => ⟨Retention.failedGroup_eq_none, fun g => Retention.failedGroup_eq_some⟩,
    fun s => exec_startupCheckComplete_idle, fun s powered released checking => ?_, fun s => ⟨fun released => ?_,
      fun asserted off => ?_, fun asserted powered checking => ?_, fun asserted powered past => ?_⟩⟩
  · exact congrArg _ (if_neg (by simp [off]))
  · exact congrArg _ (if_pos on)
  · exact ⟨_, rfl, powerOn_volatileResetOf s, rfl, rfl, rfl, rfl, rfl, rfl, rfl⟩
  · refine ⟨_, exec_externalReset powered released, ?_⟩
    by_cases checking : s.startup = .checking
    · rw [State.externalReset_of_checking checking]
      obtain ⟨now, on, startup, cut, leaves⟩ := externalReset_cuts checking rfl
      exact ⟨now, on.trans powered, rfl, fun past => absurd checking past, fun _ => ⟨startup, cut, leaves⟩⟩
    · rw [State.externalReset_of_past checking]
      exact ⟨rfl, powered, rfl, fun _ => ⟨s.externalReset_volatileResetOf, rfl, rfl, rfl⟩,
        fun here => absurd here checking⟩
  · exact congrArg _ (if_pos asserted)
  · exact exec_externalReset_off off
  · have starting : s.startup ≠ .done := by simp [checking]
    have event := exec_startupCheckComplete powered released checking
    generalize s.retention.failedGroup = x at event ⊢
    obtain ⟨more, faults, -⟩ := s.checked_faults x starting
    obtain ⟨done, marker, phase, held, since, lost, valid, demand, bank⟩ :=
      startupCheckComplete_completes ((s.checked x).ended_reports x) (State.ended_captures (s.checked_startup x) x)
    refine ⟨_, (s.checked x).unheld, (s.checked x).faults.held, event, ?_, ?_, rfl, done, marker, phase, held, since, lost,
      valid, demand, bank, fun intact => ?_, fun g failed => ?_⟩
    · rw [faults]
      exact ⟨more, rfl⟩
    · rw [State.unheld, faults]
    · subst intact
      exact startupCheckComplete_warm rfl
    · subst failed
      obtain ⟨defaults, words, session, ends⟩ := startupCheckComplete_cold (s := s) (g := g) rfl
      exact ⟨defaults, words, session, ends, startupCheckComplete_captures starting rfl⟩
  · exact congrArg _ (if_neg (by simp [released]))
  · exact exec_resetRelease_off asserted off
  · exact exec_resetRelease_checking asserted powered checking
  · have reports := s.released.readied.ended_reports none
    have ready := s.released.readied_startup
    obtain ⟨released, done, retention, phase, bank, candidate, demand, hires, settlement, registry, session⟩ :=
      resetRelease_completes reports
    refine ⟨_, s.released.readied.unheld, s.released.readied.faults.held, exec_resetRelease asserted powered past, ready,
      fun external => ?_, ?_, released, done, retention, phase,
      (State.ended_captures ready none).held.trans (State.raised_held ready), bank, candidate, demand, hires, settlement,
      registry, session⟩
    · have starting : s.released.startup ≠ .done := by
        rw [State.released_startup, external]
        nofun
      obtain ⟨more, faults, -⟩ := State.readied_faults starting
      rw [State.unheld, faults]
      exact ⟨⟨more, rfl⟩, rfl⟩
    · rw [State.ended_of_none, ← reports.session, session]
      rfl

end Sys2Proof.Proofs
end

section
/-! SUPPORT. Scope, a command as its event (R167, R169, R178): the command table read both ways, every command's row as one body
under `State.serve`, and what a refusal leaves. -/

namespace Sys2Proof.Machine

/-! ### The command table read both ways (R169) -/

theorem commandOf_of_unlisted {code : Byte} (h : commandAccess code = none) (p : Port) (params : List Byte) :
    commandOf p code params = .unknownCommand p code params := by
  unfold commandOf
  split
  case h_54 => rfl
  -- Every code that the table lists has its ports.
  all_goals next listed => simp [commandAccess, listed] at h

theorem commandAccess_of_unknownCommand {p : Port} {code : Byte} {params : List Byte} {q : Port} {k : Byte} {l : List Byte}
    (h : commandOf p code params = .unknownCommand q k l) : commandAccess code = none := by
  unfold commandAccess
  split
  case h_54 => rfl
  -- Every code that the table lists has its own event.
  all_goals next listed => simp [commandOf, listed] at h

theorem requestOf_commandOf (p : Port) (code : Byte) (params : List Byte) :
    requestOf (commandOf p code params) = some (p, code, params) := by
  have read {n : Nat} (listed : code.toNat = n) : code = BitVec.ofNat 8 n := by
    rw [← listed, BitVec.ofNat_toNat, BitVec.setWidth_eq]
  unfold commandOf
  split
  case h_54 => rfl
  all_goals next listed => rw [read listed]; rfl

/-- A well-formed request is the event that its code names. -/
theorem commandOf_of_request {c : Instr} {p : Port} {code : Byte} {params : List Byte} (w : c.wellFormed = true)
    (h : requestOf c = some (p, code, params)) : commandOf p code params = c := by
  cases c
  case unknownCommand q k l =>
    obtain ⟨unlisted, -⟩ := Bool.and_eq_true_iff.mp w
    cases h
    exact commandOf_of_unlisted (Option.isNone_iff_eq_none.mp unlisted) p params
  all_goals cases h
  all_goals rfl

/-- The event of a request whose parameters a frame can declare is well formed (R178). -/
theorem commandOf_wellFormed {params : List Byte} (short : params.length ≤ 250) (p : Port) (code : Byte) :
    (commandOf p code params).wellFormed = true := by
  have request := requestOf_commandOf p code params
  have unlisted {q k l} := commandAccess_of_unknownCommand (p := p) (code := code) (params := params) (q := q) (k := k) (l := l)
  generalize commandOf p code params = c at request unlisted
  cases c
  case unknownCommand q k l =>
    cases request
    simp [Instr.wellFormed, unlisted rfl, Instr.paramsFit, short]
  all_goals cases request
  all_goals exact decide_eq_true short

theorem readFrame_declared (code : Byte) {params : List Byte} (more : List Byte) (short : params.length ≤ 250) :
    readFrame (code :: BitVec.ofNat 8 params.length :: (params ++ more)) = .whole code params := by
  have declared : (BitVec.ofNat 8 params.length).toNat = params.length := byte_ofNat (by omega)
  exact readFrame_whole declared.symm (by omega)

end Sys2Proof.Machine

namespace Sys2Proof.Proofs
open Sys2Proof Sys2Proof.Machine

/-- Settles O4: the command table read both ways, and the frame by its declared length. -/
theorem requestsDecodeAndEncodeAgree : Obligations.RequestsDecodeAndEncodeAgree :=
  ⟨requestOf_commandOf, fun _ _ _ _ w h => commandOf_of_request w h, fun code _ more short =>
    readFrame_declared code more short⟩

end Sys2Proof.Proofs
end

section
/-! SUPPORT. Scope, refusals (R167, R169): every command's body leaves the state when its answer reports a refusal
(`State.Spared`), so that the row of the command leaves the answer alone. -/

namespace Sys2Proof.Machine

/-! ### A reply that refuses leaves the state -/

/-- The reply `x`, given in the state `s`, reports success or leaves `s` as it is. -/
def State.Spared (s : State) (x : Reply) : Prop := x.result.success = true ∨ x.state = s

theorem State.Spared.of_refuse (s : State) (r : Result) : s.Spared (s.refuse r) := .inr rfl

theorem withParams_spared {α : Type} {parsed : Option α} {f : α → State → Reply} (hf : ∀ a u, State.Spared u (f a u))
    (s : State) : s.Spared (withParams parsed f s) := by
  cases parsed with
  | none => exact .of_refuse s _
  | some a => exact hf a s

section bodies
variable (s : State)

/-! ### The Port Interfaces -/

theorem readNotice_spared (p : Port) (x : Unit) : s.Spared (readNotice p x s) := by
  unfold readNotice
  dsimp only
  split
  · exact .inr rfl
  · exact .inl rfl

/-! ### The Booth Section -/

theorem login_spared (d : DeskId) (id : Nat) : s.Spared (login d id s) := by
  unfold login
  split
  · exact .of_refuse s _
  split
  · exact .of_refuse s _
  split
  · exact .of_refuse s _
  · exact .inl rfl

theorem logout_spared (d : DeskId) : s.Spared (logout d s) := by
  unfold logout
  split <;> exact .inl rfl

theorem takeAir_spared (d : DeskId) (o : Output) (target : Prog) (marked : Option DeskId) :
    s.Spared (takeAir d o target marked s) := by
  unfold takeAir
  split
  · split
    · split
      · exact .inr rfl
      · exact .of_refuse s _
    · split <;> exact .inl rfl
  · split <;> exact .inl rfl

theorem micOn_spared (d : DeskId) (o : Output) : s.Spared (micOn d o s) := by
  unfold micOn
  split
  · exact .of_refuse s _
  split
  · exact .of_refuse s _
  split
  · exact .of_refuse s _
  split
  · exact .inr rfl
  split
  · exact takeAir_spared s d o _ none
  split
  · exact .of_refuse s _
  · exact takeAir_spared s d o _ (some _)

theorem micOff_spared (d : DeskId) : s.Spared (micOff d s) := by
  unfold micOff
  split
  · exact .inl rfl
  · split <;> exact .inl rfl
  · exact .inl rfl

theorem cancelHandover_spared (b : Fin 24) : s.Spared (cancelHandover b s) := by
  unfold cancelHandover
  split
  · exact .of_refuse s _
  · exact .inl rfl

theorem selectSource_spared (d : DeskId) (src : Source) : s.Spared (selectSource d src s) := by
  unfold selectSource
  split
  · exact .of_refuse s _
  split
  · exact .of_refuse s _
  split
  · exact .of_refuse s _
  · exact .inl rfl

theorem readInterpreter_spared (sel : Nat ⊕ Nat) : s.Spared (readInterpreter sel s) := by
  unfold readInterpreter
  split <;> split <;> exact .inr rfl

/-! ### Programs and the Carrier Planner -/

theorem setBooth_spared (a : BoothArgs) : s.Spared (setBooth a s) := by
  unfold setBooth
  split
  · exact .of_refuse s _
  split
  · exact .of_refuse s _
  · refine .inl ?_
    dsimp only
    split <;> rfl

theorem setProgram_spared (p : Prog) (c : ProgConfig) : s.Spared (setProgram p c s) := by
  unfold setProgram
  dsimp only
  split
  · exact .of_refuse s _
  split
  · exact .of_refuse s _
  · refine .inl ?_
    dsimp only
    split <;> rfl

theorem planHold_spared (x : Unit) : s.Spared (planHold x s) := by
  unfold planHold
  split
  · exact .of_refuse s _
  · exact .inl rfl

theorem planRelease_spared (x : Unit) : s.Spared (planRelease x s) := by
  unfold planRelease
  split
  · exact .of_refuse s _
  split
  · exact .inr rfl
  · exact .inl rfl

theorem planAbandon_spared (x : Unit) : s.Spared (planAbandon x s) := by
  unfold planAbandon
  split
  · exact .inl rfl
  · exact .of_refuse s _

theorem readPlan_spared (sel : PlanSelector) : s.Spared (readPlan sel s) := by
  unfold readPlan
  split <;> exact .inr rfl

theorem setBankBudget_spared (k : Fin 8) (v : Nat) : s.Spared (setBankBudget k v s) := by
  refine .inl ?_
  unfold setBankBudget
  dsimp only
  split <;> rfl

/-! ### The Receiver Registry and the racks -/

theorem readReceiver_spared (sel : ReceiverSelector) : s.Spared (readReceiver sel s) := by
  unfold readReceiver
  split <;> exact .inr rfl

theorem enrolReceiver_spared (n : Nat) : s.Spared (enrolReceiver n s) := by
  unfold enrolReceiver
  dsimp only
  split
  · exact .of_refuse s _
  split
  · exact .of_refuse s _
  · exact .inl rfl

theorem State.withdrawAnswer_success (t : State) (n : Nat) : (t.withdrawAnswer n).result.success = true := by
  unfold State.withdrawAnswer
  split <;> rfl

theorem withdrawReceiver_spared (n : Nat) : s.Spared (withdrawReceiver n s) := by
  unfold withdrawReceiver
  split
  · exact .of_refuse s _
  split
  · exact .of_refuse s _
  all_goals exact .inl (State.withdrawAnswer_success _ n)

theorem reinstateReceiver_spared (n : Nat) : s.Spared (reinstateReceiver n s) := by
  unfold reinstateReceiver
  split
  · exact .of_refuse s _
  split
  · exact .inl rfl
  · exact .of_refuse s _

theorem deleteReceiver_spared (n : Nat) : s.Spared (deleteReceiver n s) := by
  unfold deleteReceiver
  split
  · exact .of_refuse s _
  split
  · exact .inl rfl
  · exact .of_refuse s _

theorem setThreshold_spared (v : Nat) : s.Spared (setThreshold v s) := by
  refine .inl ?_
  unfold setThreshold
  dsimp only
  split <;> rfl

theorem stocktakeStart_spared (x : Unit) : s.Spared (stocktakeStart x s) := by
  unfold stocktakeStart
  split
  · exact .of_refuse s _
  · exact .inl rfl

theorem stocktakeEnd_spared (x : Unit) : s.Spared (stocktakeEnd x s) := by
  unfold stocktakeEnd
  split
  · exact .inl rfl
  · exact .of_refuse s _

theorem rackSeated_spared (n : Nat) (k : Fin 512) (b : Nat) : s.Spared (rackSeated n k b s) := by
  unfold rackSeated
  split
  · exact .of_refuse s _
  · refine .inl ?_
    dsimp only [seatedResult]
    split
    · rfl
    · split <;> rfl

theorem rackBattery_spared (n b : Nat) : s.Spared (rackBattery n b s) := by
  unfold rackBattery
  split
  · exact .of_refuse s _
  · refine .inl ?_
    dsimp only
    split <;> rfl

theorem rackRemoved_spared (k : Fin 512) : s.Spared (rackRemoved k s) := by
  unfold rackRemoved
  split
  · exact .of_refuse s _
  · exact .inl rfl

/-! ### The Hire Table and the Settlement Unit -/

theorem openHire_spared (a : OpenArgs) : s.Spared (openHire a s) := by
  unfold openHire
  split
  · exact .of_refuse s _
  split
  · exact .of_refuse s _
  split
  · exact .inr rfl
  split
  · exact .of_refuse s _
  split
  · exact .inr rfl
  · refine .inl ?_
    dsimp only
    split <;> rfl

theorem addReceiver_spared (k n : Nat) : s.Spared (addReceiver k n s) := by
  unfold addReceiver
  split
  · exact .of_refuse s _
  split
  · exact .of_refuse s _
  split
  · exact .of_refuse s _
  split
  · exact .of_refuse s _
  split
  · exact .of_refuse s _
  · exact .inl rfl

theorem returnReceiver_spared (n : Nat) : s.Spared (returnReceiver n s) := by
  unfold returnReceiver
  split
  · exact .of_refuse s _
  split
  · exact .inl rfl
  · exact .inl rfl
  all_goals exact .of_refuse s _

theorem writeOff_spared (k n : Nat) : s.Spared (writeOff k n s) := by
  unfold writeOff
  split
  · exact .of_refuse s _
  split
  · exact .of_refuse s _
  split
  · exact .of_refuse s _
  · exact .inl rfl

theorem changePreset_spared (k : Nat) (preset : Option Prog) : s.Spared (changePreset k preset s) := by
  unfold changePreset
  split
  · exact .of_refuse s _
  split
  · exact .of_refuse s _
  split
  · exact .of_refuse s _
  split <;> exact .inl rfl

theorem readHire_spared (sel : HireSelector) (lines : Bool) : s.Spared (readHire sel lines s) := by
  unfold readHire
  split <;> exact .inr rfl

theorem findBadge_spared (badge : Nat) : s.Spared (findBadge badge s) := by
  unfold findBadge
  split <;> exact .inr rfl

theorem takeSettlement_spared (x : Unit) : s.Spared (takeSettlement x s) := by
  unfold takeSettlement
  split <;> exact .inl rfl

theorem setTariff_spared (k : Fin 8) (t : Tariff) : s.Spared (setTariff k t s) := by
  refine .inl ?_
  unfold setTariff
  dsimp only
  split <;> rfl

/-! ### Session and Clock -/

theorem openSession_spared (x : Unit) : s.Spared (openSession x s) := by
  unfold openSession
  split
  · exact .of_refuse s _
  split
  · exact .of_refuse s _
  · exact .inl rfl

theorem recess_spared (x : Unit) : s.Spared (recess x s) := by
  unfold recess
  split
  · exact .of_refuse s _
  · exact .inl rfl

theorem resume_spared (x : Unit) : s.Spared (resume x s) := by
  unfold resume
  split
  · exact .of_refuse s _
  · exact .inl rfl

theorem endSession_spared (x : Unit) : s.Spared (endSession x s) := by
  unfold endSession
  split
  · exact .of_refuse s _
  all_goals exact .inl rfl

theorem setClock_spared (day second : Nat) : s.Spared (setClock day second s) := by
  refine .inl ?_
  unfold setClock
  dsimp only
  split <;> rfl

theorem dayClose_spared (x : Unit) : s.Spared (dayClose x s) := by
  unfold dayClose
  split
  · exact .of_refuse s _
  · exact .inl rfl

theorem readDaySummary_spared (x : Unit) : s.Spared (readDaySummary x s) := by
  unfold readDaySummary
  dsimp only
  split <;> exact .inr rfl

end bodies

/-! ### Every command -/

/-- The event `c` is the row of this request: one body, the same in every state, which its port serves and which leaves the state when
it refuses (R167, R169; log entry 5). -/
def RowOf (c : Instr) (p : Port) (code : Byte) (params : List Byte) : Prop :=
  ∃ body : State → Reply, (∀ s, exec c s = .next (s.serve p code params body)) ∧ ∀ u : State, u.Spared (body u)

theorem RowOf.of_body {α : Type} {c : Instr} {p : Port} {code : Byte} {params : List Byte} {parsed : Option α}
    {f : α → State → Reply} (runs : ∀ s, exec c s = .next (s.serve p code params (withParams parsed f)))
    (hf : ∀ a u, State.Spared u (f a u)) : RowOf c p code params := ⟨_, runs, withParams_spared hf⟩

/-- Every well-formed request is the row of its command. -/
theorem rowOf_request {c : Instr} {p : Port} {code : Byte} {params : List Byte} (w : c.wellFormed = true)
    (h : requestOf c = some (p, code, params)) : RowOf c p code params := by
  cases c with
  | unknownCommand q k l =>
    obtain ⟨unlisted, -⟩ := Bool.and_eq_true_iff.mp w
    cases h
    exact ⟨_, fun s => congrArg Host.Outcome.next (if_pos unlisted), fun u => .of_refuse u _⟩
  | readStatus _ _ => cases h; exact .of_body (fun _ => rfl) fun _ _ => .inl rfl
  | readNotice _ _ => cases h; exact .of_body (fun _ => rfl) fun x u => readNotice_spared u p x
  | setNoticeMask _ _ => cases h; exact .of_body (fun _ => rfl) fun _ _ => .inl rfl
  | readCapability _ _ => cases h; exact .of_body (fun _ => rfl) fun _ _ => .inl rfl
  | login _ _ => cases h; exact .of_body (fun _ => rfl) fun a u => login_spared u a.1 a.2
  | logout _ _ => cases h; exact .of_body (fun _ => rfl) fun d u => logout_spared u d
  | micOn _ _ => cases h; exact .of_body (fun _ => rfl) fun a u => micOn_spared u a.1 a.2
  | micOff _ _ => cases h; exact .of_body (fun _ => rfl) fun d u => micOff_spared u d
  | cancelHandover _ _ => cases h; exact .of_body (fun _ => rfl) fun b u => cancelHandover_spared u b
  | selectSource _ _ => cases h; exact .of_body (fun _ => rfl) fun a u => selectSource_spared u a.1 a.2
  | readDesk _ _ => cases h; exact .of_body (fun _ => rfl) fun _ _ => .inl rfl
  | readBooth _ _ => cases h; exact .of_body (fun _ => rfl) fun _ _ => .inl rfl
  | readProgram _ _ => cases h; exact .of_body (fun _ => rfl) fun _ _ => .inl rfl
  | openHire _ _ => cases h; exact .of_body (fun _ => rfl) fun a u => openHire_spared u a
  | addReceiver _ _ => cases h; exact .of_body (fun _ => rfl) fun a u => addReceiver_spared u a.1 a.2
  | returnReceiver _ _ => cases h; exact .of_body (fun _ => rfl) fun n u => returnReceiver_spared u n
  | writeOff _ _ => cases h; exact .of_body (fun _ => rfl) fun a u => writeOff_spared u a.1 a.2
  | changePreset _ _ => cases h; exact .of_body (fun _ => rfl) fun a u => changePreset_spared u a.1 a.2
  | readHire _ _ => cases h; exact .of_body (fun _ => rfl) fun a u => readHire_spared u a.1 a.2
  | readReceiver _ _ => cases h; exact .of_body (fun _ => rfl) fun x u => readReceiver_spared u x
  | rackSeated _ _ => cases h; exact .of_body (fun _ => rfl) fun a u => rackSeated_spared u a.1 a.2.1 a.2.2
  | rackBattery _ _ => cases h; exact .of_body (fun _ => rfl) fun a u => rackBattery_spared u a.1 a.2
  | rackRemoved _ _ => cases h; exact .of_body (fun _ => rfl) fun k u => rackRemoved_spared u k
  | stocktakeStart _ _ => cases h; exact .of_body (fun _ => rfl) fun x u => stocktakeStart_spared u x
  | stocktakeEnd _ _ => cases h; exact .of_body (fun _ => rfl) fun x u => stocktakeEnd_spared u x
  | takeSettlement _ _ => cases h; exact .of_body (fun _ => rfl) fun x u => takeSettlement_spared u x
  | findBadge _ _ => cases h; exact .of_body (fun _ => rfl) fun n u => findBadge_spared u n
  | openSession _ _ => cases h; exact .of_body (fun _ => rfl) fun x u => openSession_spared u x
  | recess _ _ => cases h; exact .of_body (fun _ => rfl) fun x u => recess_spared u x
  | resume _ _ => cases h; exact .of_body (fun _ => rfl) fun x u => resume_spared u x
  | endSession _ _ => cases h; exact .of_body (fun _ => rfl) fun x u => endSession_spared u x
  | setBooth _ _ => cases h; exact .of_body (fun _ => rfl) fun a u => setBooth_spared u a
  | setProgram _ _ => cases h; exact .of_body (fun _ => rfl) fun a u => setProgram_spared u a.1 a.2
  | planHold _ _ => cases h; exact .of_body (fun _ => rfl) fun x u => planHold_spared u x
  | planRelease _ _ => cases h; exact .of_body (fun _ => rfl) fun x u => planRelease_spared u x
  | planAbandon _ _ => cases h; exact .of_body (fun _ => rfl) fun x u => planAbandon_spared u x
  | setBankBudget _ _ => cases h; exact .of_body (fun _ => rfl) fun a u => setBankBudget_spared u a.1 a.2
  | setTariff _ _ => cases h; exact .of_body (fun _ => rfl) fun a u => setTariff_spared u a.1 a.2
  | setThreshold _ _ => cases h; exact .of_body (fun _ => rfl) fun v u => setThreshold_spared u v
  | setClock _ _ => cases h; exact .of_body (fun _ => rfl) fun a u => setClock_spared u a.1 a.2
  | dayClose _ _ => cases h; exact .of_body (fun _ => rfl) fun x u => dayClose_spared u x
  | enrolReceiver _ _ => cases h; exact .of_body (fun _ => rfl) fun n u => enrolReceiver_spared u n
  | withdrawReceiver _ _ => cases h; exact .of_body (fun _ => rfl) fun n u => withdrawReceiver_spared u n
  | reinstateReceiver _ _ => cases h; exact .of_body (fun _ => rfl) fun n u => reinstateReceiver_spared u n
  | deleteReceiver _ _ => cases h; exact .of_body (fun _ => rfl) fun n u => deleteReceiver_spared u n
  | readFaults _ _ => cases h; exact .of_body (fun _ => rfl) fun _ _ => .inl rfl
  | clearFaults _ _ => cases h; exact .of_body (fun _ => rfl) fun _ _ => .inl rfl
  | readInterpreter _ _ => cases h; exact .of_body (fun _ => rfl) fun x u => readInterpreter_spared u x
  | readDaySummary _ _ => cases h; exact .of_body (fun _ => rfl) fun x u => readDaySummary_spared u x
  | resyncDistribution _ _ => cases h; exact .of_body (fun _ => rfl) fun _ _ => .inl rfl
  | portReset _ _ => cases h; exact .of_body (fun _ => rfl) fun _ _ => .inl rfl
  | readPlan _ _ => cases h; exact .of_body (fun _ => rfl) fun x u => readPlan_spared u x
  | readTariff _ _ => cases h; exact .of_body (fun _ => rfl) fun _ _ => .inl rfl
  | _ => cases h

/-! ### The answer of a request that a port can take -/

theorem State.placeAnswer_holdsAnswer (t : State) (p : Port) (code : Byte) (r : Result) (fields : List Byte) :
    (t.placeAnswer p code r fields).holdsAnswer p code r fields := ⟨by simp [State.placeAnswer], by simp [State.placeAnswer]⟩

theorem State.answered_holdsAnswer (s : State) (p : Port) (code : Byte) (r : Result) (fields : List Byte) :
    (s.answered p code r fields).holdsAnswer p code r fields := ⟨by simp [State.answered], by simp [State.answered]⟩

/-- A port that can take a request answers it, and a refusal leaves the answer alone (R167, R169). -/
theorem State.serve_answers {s : State} {p : Port} {code : Byte} {params : List Byte} {body : State → Reply}
    (ready : s.canTake p) (short : params.length ≤ 250) (spared : ∀ u : State, u.Spared (body u)) :
    ∃ r fields, (s.serve p code params body).holdsAnswer p code r fields ∧
      (r.success = false → s.serve p code params body = s.answered p code r fields) := by
  obtain ⟨powered, running, -, idle, settled⟩ := ready
  cases check : s.portCheck p code params with
  | some r =>
    rw [State.serve_refused s p code params body r powered running idle settled short check]
    exact ⟨r, [], s.answered_holdsAnswer .., fun _ => rfl⟩
  | none =>
    have served : s.serve p code params body = (s.taken p code params).handle p code body := by
      rw [State.serve_ready s p code params body powered running idle short,
        State.takeRequest_plain s p code params settled, check]
      rfl
    rw [served]
    refine ⟨_, _, State.placeAnswer_holdsAnswer .., fun refused => ?_⟩
    have same : (body (s.taken p code params)).state = s.taken p code params :=
      (spared _).resolve_left (by simp [refused])
    rw [State.handle, same]
    exact State.taken_placeAnswer ..

end Sys2Proof.Machine

namespace Sys2Proof.Proofs
open Sys2Proof Sys2Proof.Machine

/-- Settles O7: every request is its command's row (`rowOf_request`), whose body leaves the state when it refuses. -/
theorem refusedCommandsChangeNothing : Obligations.RefusedCommandsChangeNothing := by
  intro c s p code params w h ready
  obtain ⟨body, runs, spared⟩ := rowOf_request w h
  obtain ⟨r, fields, answer, refusal⟩ := State.serve_answers ready (exec_of_request w h s).1 spared
  exact ⟨_, r, fields, runs s, answer, refusal⟩

end Sys2Proof.Proofs
end

section
/-! SUPPORT. Scope, transactions (R166 to R168, R177, R178): a request frame by what it holds, its request handled afterwards as by the
row of its command, an answer fetched, and the status byte bit by bit. -/

namespace Sys2Proof.Machine

/-! ### Transactions on a port that is free of RESET_N -/

section operating
variable {s : State} (powered : s.powered = true) (running : s.resetAsserted = false)
include powered running

theorem State.operating_of_running : s.operating = true := by
  simp [State.operating, powered, running]

theorem exec_requestTransaction_busy {p : Port} (busy : (s.port p).request ≠ none) (frame : List Byte) :
    exec (.requestTransaction p frame) s = .next (s.shiftOut p [s.statusByte p]) := by
  have flag : (s.port p).busy = true := Option.isSome_iff_ne_none.mpr busy
  show execRequestTransaction p frame s = _
  rw [execRequestTransaction, if_pos (State.operating_of_running powered running), if_pos flag]

theorem exec_requestTransaction_free {p : Port} (free : (s.port p).request = none) (frame : List Byte) :
    exec (.requestTransaction p frame) s = .next (s.takeFrame p (readFrame frame)) := by
  have flag : ¬ (s.port p).busy = true := by simp [PortState.busy, free]
  show execRequestTransaction p frame s = _
  rw [execRequestTransaction, if_pos (State.operating_of_running powered running), if_neg flag]

theorem exec_fetchAnswer_some {p : Port} {a : Answer} (held : (s.port p).answer = some a) :
    exec (.fetchAnswer p) s = .next (((s.shiftOut p ([s.statusByte p] ++ a.frame)).setPort p
      { s.port p with answer := none }).takeSelfReset p) := by
  show execFetchAnswer p s = _
  rw [execFetchAnswer, if_pos (State.operating_of_running powered running), held]
  dsimp only
  rw [State.shiftOut_port]

theorem exec_fetchAnswer_none {p : Port} (empty : (s.port p).answer = none) :
    exec (.fetchAnswer p) s = .next (s.shiftOut p ([s.statusByte p] ++ emptyFrame)) := by
  show execFetchAnswer p s = _
  rw [execFetchAnswer, if_pos (State.operating_of_running powered running), empty]

theorem exec_statusOnly (p : Port) : exec (.statusOnly p) s = .next (s.shiftOut p [s.statusByte p]) := by
  show execStatusOnly p s = _
  rw [execStatusOnly, if_pos (State.operating_of_running powered running)]

theorem exec_undefinedTransactionByte (p : Port) {b : Byte} (h1 : b ≠ 1#8) (h2 : b ≠ 2#8) (h3 : b ≠ 3#8) :
    exec (.undefinedTransactionByte p b) s = .next (s.shiftOut p [s.statusByte p]) := by
  have undefined : (b.toNat == 0 || decide (3 < b.toNat)) = true := by
    rw [Bool.or_eq_true, beq_iff_eq, decide_eq_true_eq]
    bv_omega
  show execUndefinedTransactionByte p b s = _
  rw [execUndefinedTransactionByte, if_pos]
  rw [State.operating_of_running powered running, undefined]
  rfl

end operating

/-! ### Frames (R167, R178) -/

theorem readFrame_broken {code len : Byte} {rest : List Byte} (h : 250 < len.toNat ∨ rest.length < len.toNat) :
    readFrame (code :: len :: rest) = .broken code := if_pos h

/-! ### A pending self-reset (R177) -/

theorem State.takeSelfReset_of_settled {t : State} {p : Port} (settled : p = .operator → t.ports.selfReset = false) :
    t.takeSelfReset p = t := by
  refine if_neg ?_
  rintro ⟨operator, pending⟩
  rw [settled operator] at pending
  cases pending

theorem State.takeSelfReset_of_pending {t : State} (pending : t.ports.selfReset = true) :
    t.takeSelfReset .operator =
      { t with ports := { t.ports with operator := .reset .operator, selfReset := false } } :=
  if_pos ⟨rfl, pending⟩

/-- The Operator port reset, with what it shifts out in the transaction that carries the reset out. -/
def State.selfResetTo (s : State) (v : PortState) (bs : List Byte) : State :=
  { s with ports := { s.ports with
    operator := v
    selfReset := false
    wire := { s.ports.wire with operator := bs } } }

/-- The frame of a request on the Operator port with a self-reset pending: the port is reset, and the slots are empty. -/
theorem State.openRequest_of_pending {s : State} (pending : s.ports.selfReset = true) :
    s.openRequest .operator = s.selfResetTo (.reset .operator) [s.statusByte .operator] := by
  unfold State.openRequest
  rw [State.takeSelfReset_of_pending (by rwa [State.shiftOut_selfReset])]
  rfl

theorem State.selfResetTo_nextTurn {s : State} {v : PortState} (bs : List Byte) (free : (s.port .operator).request = none)
    (h : v.request = none) : (s.selfResetTo v bs).nextTurn = s.nextTurn := by
  have old : s.ports.operator.request = none := free
  simp only [State.nextTurn, State.selfResetTo, old, h]

theorem State.placeAnswer_of_pending {s : State} (pending : s.ports.selfReset = true) (code : Byte) (r : Result) :
    (s.openRequest .operator).placeAnswer .operator code r [] =
      s.selfResetTo ⟨none, some ⟨code, r, []⟩, [], kindsOf .operator, false⟩ [s.statusByte .operator] := by
  rw [State.openRequest_of_pending pending]
  rfl

/-- A whole frame on the Operator port with a self-reset pending. -/
theorem State.takeRequest_of_pending {s : State} (pending : s.ports.selfReset = true)
    (free : (s.port .operator).request = none) (code : Byte) (params : List Byte) :
    s.takeRequest .operator code params =
      match s.portCheck .operator code params with
      | some r => s.selfResetTo ⟨none, some ⟨code, r, []⟩, [], kindsOf .operator, false⟩ [s.statusByte .operator]
      | none =>
        s.selfResetTo ⟨some ⟨code, params, s.nextTurn⟩, none, [], kindsOf .operator, false⟩ [s.statusByte .operator] := by
  unfold State.takeRequest
  cases s.portCheck .operator code params with
  | some r =>
    dsimp only
    rw [State.placeRequest_placeAnswer, State.placeAnswer_of_pending pending]
  | none =>
    dsimp only
    rw [State.placeRequest, State.openRequest_of_pending pending, State.selfResetTo_nextTurn _ free rfl]
    rfl

theorem State.openRequest_placeAnswer {s : State} {p : Port} (settled : p = .operator → s.ports.selfReset = false)
    (code : Byte) (r : Result) (fields : List Byte) :
    (s.openRequest p).placeAnswer p code r fields = s.answered p code r fields := by
  rw [State.openRequest_plain s p settled]
  cases p <;> rfl

/-! ### A taken request and the row that handles it (R167, R169) -/

section taken
variable {s : State} {p : Port}

theorem State.openRequest_port_other {q : Port} (other : q ≠ p) : (s.openRequest p).port q = s.port q := by
  unfold State.openRequest
  dsimp only
  rw [State.setPort_port_other _ _ _ _ other]
  by_cases reset : p = .operator ∧ (s.shiftOut p [s.statusByte p]).ports.selfReset = true
  · obtain ⟨rfl, pending⟩ := reset
    rw [State.takeSelfReset_of_pending pending]
    cases q
    · rfl
    · rfl
    · exact absurd rfl other
  · rw [State.takeSelfReset, if_neg reset, State.shiftOut_port]

theorem State.takeRequest_of_passed {code : Byte} {params : List Byte} (passed : s.portCheck p code params = none) :
    s.takeRequest p code params = (s.openRequest p).placeRequest p code params := by
  rw [State.takeRequest, passed]

/-- A request that passes its port's checks waits in its slot, and the other slots stand. -/
theorem State.takeRequest_request {code : Byte} {params : List Byte} (passed : s.portCheck p code params = none) :
    (((s.takeRequest p code params).port p).request = some ⟨code, params, (s.openRequest p).nextTurn⟩) ∧
      ∀ q, q ≠ p → ((s.takeRequest p code params).port q).request = (s.port q).request := by
  rw [State.takeRequest_of_passed passed, State.placeRequest]
  refine ⟨by rw [State.setPort_port], fun q other => ?_⟩
  rw [State.setPort_port_other _ _ _ _ other, State.openRequest_port_other other]

end taken

/-- The one request that waits is handed to its block before any time passes, when no opportunity to send stands (log entry 45). -/
theorem State.step_of_waiting {u : State} {p : Port} {r : Request} (calm : u.pending = []) (operating : u.operating = true)
    (quiet : u.link.phase ≠ .idle ∨ u.link.ready = false ∨ u.link.anyPending = false)
    (waits : (u.port p).request = some r) (alone : ∀ q, q ≠ p → (u.port q).request = none) :
    step u = .next { u with pending := [commandOf p r.code r.params] } := by
  have noSend : u.sendDue = false := by
    rw [← Bool.not_eq_true, State.sendDue, Bool.and_eq_true, Link.opportunity_iff]
    rintro ⟨-, idle, ready, keys⟩
    rcases quiet with busy | unready | none
    · exact busy idle
    · rw [unready] at ready; cases ready
    · rw [none] at keys; cases keys
  have first := u.nextHandling_first operating p r waits fun q k held other => by
    rw [alone q other] at held
    cases held
  rw [step, calm]
  exact congrArg Host.Outcome.next (u.idle_of_handling noSend first)

/-- A taken request handled: the row does on the state that the transaction leaves what it does by itself (log entry 5). -/
theorem exec_row_of_taken {c : Instr} {p : Port} {code : Byte} {params : List Byte} (row : RowOf c p code params) {s : State}
    (powered : s.powered = true) (running : s.resetAsserted = false) (free : (s.port p).request = none)
    (short : params.length ≤ 250) (passed : s.portCheck p code params = none) :
    exec c (s.takeRequest p code params) = exec c s := by
  obtain ⟨body, runs, -⟩ := row
  have kept := s.takeRequest_reports p code params
  have operating : (s.takeRequest p code params).operating = true := by
    rw [show s.takeRequest p code params = _ from kept]
    exact State.operating_of_running powered running
  rw [runs, runs, State.serve_waiting _ p code params body _ operating (State.takeRequest_request passed).1,
    State.serve_ready s p code params body powered running free short, passed]
  rfl

/-- A request that a check decides: its row does what the transaction does. -/
theorem exec_row_of_decided {c : Instr} {p : Port} {code : Byte} {params : List Byte} (row : RowOf c p code params) {s : State}
    (powered : s.powered = true) (running : s.resetAsserted = false) (free : (s.port p).request = none)
    (short : params.length ≤ 250) (decided : s.portCheck p code params ≠ none) :
    exec c s = .next (s.takeRequest p code params) := by
  obtain ⟨body, runs, -⟩ := row
  rw [runs, State.serve_ready s p code params body powered running free short,
    if_pos (Option.isSome_iff_ne_none.mpr decided)]

/-! ### The status byte (R178) -/

/-- Five flags in one byte, from bit 0 on. -/
def flagBits (a b c d e : Bool) : Byte :=
  BitVec.ofNat 8 (bitAt a 0 + bitAt b 1 + bitAt c 2 + bitAt d 3 + bitAt e 4)

theorem State.statusByte_eq (s : State) (p : Port) : s.statusByte p =
    flagBits (s.port p).answerReady (s.port p).busy (s.port p).noticePending (s.port p).lost s.starting := rfl

theorem flagBits_bits : ∀ a b c d e : Bool,
    (flagBits a b c d e).getLsbD 0 = a ∧ (flagBits a b c d e).getLsbD 1 = b ∧ (flagBits a b c d e).getLsbD 2 = c ∧
      (flagBits a b c d e).getLsbD 3 = d ∧ (flagBits a b c d e).getLsbD 4 = e ∧ (flagBits a b c d e).toNat < 32 := by
  decide

end Sys2Proof.Machine

namespace Sys2Proof.Proofs
open Sys2Proof Sys2Proof.Machine

/-- Settles O9: with BUSY set by `exec_requestTransaction_busy`, and otherwise by what the frame holds and whether a self-reset waits
(`State.openRequest_placeAnswer`, `State.takeRequest_plain`, `State.takeRequest_of_pending`). -/
theorem requestTransactionTakesTheFrame : Obligations.RequestTransactionTakesTheFrame := by
  refine ⟨State.turn_lt_nextTurn, fun s p frame powered running =>
    ⟨fun busy => exec_requestTransaction_busy powered running busy frame, fun free => ?_⟩⟩
  have taken := exec_requestTransaction_free powered running free frame
  rw [taken]
  refine ⟨?_, fun settled => ⟨?_, ?_, ?_⟩, ?_⟩
  · rintro rfl
    rfl
  · rintro code rfl
    exact congrArg _ (State.openRequest_placeAnswer settled code .malformed [])
  · rintro code len rest rfl broken
    rw [readFrame_broken broken]
    exact congrArg _ (State.openRequest_placeAnswer settled code .malformed [])
  · rintro code len params more rfl length short
    rw [readFrame_whole length short]
    refine ⟨fun passed => congrArg _ ?_, fun r decided => congrArg _ ?_⟩
    · exact (State.takeRequest_plain s p code params settled).trans (by rw [passed])
    · exact (State.takeRequest_plain s p code params settled).trans (by rw [decided])
  · rintro rfl pending
    refine ⟨fun code r held => ?_, fun code len params more whole length short passed => ?_⟩
    · rcases held with ⟨rfl | ⟨len, rest, rfl, broken⟩, rfl⟩ | ⟨len, params, more, rfl, length, short, decided⟩
      · exact congrArg _ (State.placeAnswer_of_pending pending code .malformed)
      · rw [readFrame_broken broken]
        exact congrArg _ (State.placeAnswer_of_pending pending code .malformed)
      · rw [readFrame_whole length short]
        exact congrArg _ ((State.takeRequest_of_pending pending free code params).trans (by rw [decided]; rfl))
    · rw [whole, readFrame_whole length short]
      exact congrArg _ ((State.takeRequest_of_pending pending free code params).trans (by rw [passed]; rfl))

/-- Settles O10: the command's row has one body in every state (`rowOf_request`), so that it runs alike on the request in its slot and
on the slot that the row fills itself. -/
theorem aTakenRequestIsHandledAsItsCommand : Obligations.ATakenRequestIsHandledAsItsCommand := by
  intro s u p code len params more powered running free length short taken
  rw [exec_requestTransaction_free powered running free, readFrame_whole length short] at taken
  cases taken
  have fits : params.length ≤ 250 := by omega
  have row : RowOf (commandOf p code params) p code params :=
    rowOf_request (commandOf_wellFormed fits p code) (requestOf_commandOf p code params)
  refine ⟨fun passed => exec_row_of_taken row powered running free fits passed,
    fun decided => exec_row_of_decided row powered running free fits decided, fun passed calm quiet alone => ?_⟩
  obtain ⟨waits, others⟩ := State.takeRequest_request (s := s) (p := p) (code := code) (params := params) passed
  have kept : s.takeRequest p code params = _ := s.takeRequest_reports p code params
  exact State.step_of_waiting (u := s.takeRequest p code params) (by rw [kept]; exact calm)
    (by rw [kept]; exact State.operating_of_running powered running) (by rw [kept]; exact quiet) waits
    fun q other => (others q other).trans (alone q other)

/-- Settles O11: a held answer is sent and its slot emptied, and a self-reset that waits is then carried out. -/
theorem anAnswerIsFetchedOnce : Obligations.AnAnswerIsFetchedOnce := by
  refine fun s p powered running => ⟨fun code r fields held => ?_, fun empty => exec_fetchAnswer_none powered running empty⟩
  rw [exec_fetchAnswer_some powered running held]
  refine ⟨fun settled => congrArg _ (State.takeSelfReset_of_settled (by simpa using settled)), ?_⟩
  rintro rfl pending
  exact congrArg _ (State.takeSelfReset_of_pending (by simpa using pending))

/-- Settles O12: the status byte holds the port's five flags (`flagBits_bits`). -/
theorem statusTransactionsShowTheFlags : Obligations.StatusTransactionsShowTheFlags := by
  intro s p
  refine ⟨fun powered running => ⟨exec_statusOnly powered running p,
    fun b h1 h2 h3 => exec_undefinedTransactionByte powered running p h1 h2 h3⟩, ?_⟩
  have starting : (s.startup != .done) = s.starting := by
    rw [State.starting]
    cases s.startup <;> rfl
  rw [starting, State.statusByte_eq]
  exact flagBits_bits ..

end Sys2Proof.Proofs
end

section
/-! SUPPORT. Scope, notices (R173, R174): what an offer, a fault raise and a notice leave of each port. -/

namespace Sys2Proof.Machine

/-! ### A notice offered to one port (R174) -/

section offer
variable (s : State) (p : Port) (n : Notice)

theorem State.offer_of_masked (masked : n.kind ∉ (s.port p).mask) : s.offer p n = (s, false) := by
  rw [State.offer, if_pos masked]

theorem State.offer_of_room (unmasked : n.kind ∈ (s.port p).mask) (room : (s.port p).queue.length < 16) :
    s.offer p n = (s.setPort p { s.port p with queue := (s.port p).queue ++ [n] }, false) := by
  rw [State.offer, if_neg (not_not_intro unmasked), if_pos room]

theorem State.offer_of_full (unmasked : n.kind ∈ (s.port p).mask) (full : 16 ≤ (s.port p).queue.length) :
    s.offer p n = (s.setPort p { s.port p with lost := true }, true) := by
  rw [State.offer, if_neg (not_not_intro unmasked), if_neg (by omega)]

theorem PortState.joined_of_masked {v : PortState} {n : Notice} (masked : n.kind ∉ v.mask) : v.joined n = v.queue :=
  if_neg fun h => masked h.1

theorem PortState.joined_of_full {v : PortState} {n : Notice} (full : 16 ≤ v.queue.length) : v.joined n = v.queue :=
  if_neg fun h => by omega

theorem PortState.joined_of_room {v : PortState} {n : Notice} (unmasked : n.kind ∈ v.mask) (room : v.queue.length < 16) :
    v.joined n = v.queue ++ [n] := if_pos ⟨unmasked, room⟩

theorem PortState.prefix_joined (v : PortState) (n : Notice) : v.queue <+: v.joined n := by
  unfold PortState.joined
  split
  · exact List.prefix_append ..
  · exact List.prefix_rfl

/-- What an offer leaves of its port: the queue as the notice joins it, and the flag set by a drop. -/
theorem State.offer_port : (s.offer p n).1.port p =
    { s.port p with queue := (s.port p).joined n, lost := (s.port p).lost || (s.offer p n).2 } := by
  rcases s.offer_cases p n with ⟨masked, same⟩ | ⟨unmasked, room, joins⟩ | ⟨unmasked, full, drops⟩
  · rw [same, PortState.joined_of_masked masked, Bool.or_false]
  · rw [joins, State.setPort_port, PortState.joined_of_room unmasked room, Bool.or_false]
  · rw [drops, State.setPort_port, PortState.joined_of_full full, Bool.or_true]

theorem State.offer_port_other {q : Port} (other : q ≠ p) : (s.offer p n).1.port q = s.port q := by
  rcases s.offer_cases p n with ⟨-, same⟩ | ⟨-, -, joins⟩ | ⟨-, -, drops⟩
  · rw [same]
  · rw [joins, State.setPort_port_other _ _ _ _ other]
  · rw [drops, State.setPort_port_other _ _ _ _ other]

theorem State.offer_dropped_of_room (room : n.kind ∈ (s.port p).mask → (s.port p).queue.length < 16) :
    (s.offer p n).2 = false := by
  rcases s.offer_cases p n with ⟨-, same⟩ | ⟨-, -, joins⟩ | ⟨unmasked, full, -⟩
  · rw [same]
  · rw [joins]
  · exact absurd (room unmasked) (by omega)

end offer

/-! ### What notices leave of the ports -/

/-- From `s` to `t` the ports' queues may have grown at the back and NOTICES_LOST flags may have changed: the slots, the masks, the
waiting self-reset and the wire stand. -/
structure State.QueuesGrow (s t : State) : Prop where
  port : ∀ p, (t.port p).request = (s.port p).request ∧ (t.port p).answer = (s.port p).answer ∧
    (t.port p).mask = (s.port p).mask ∧ (s.port p).queue <+: (t.port p).queue
  selfReset : t.ports.selfReset = s.ports.selfReset
  wire : t.ports.wire = s.ports.wire

theorem State.QueuesGrow.of_ports {s t : State} (h : t.ports = s.ports) : s.QueuesGrow t := by
  have port (p : Port) : t.port p = s.port p := by cases p <;> simp only [State.port, h]
  exact ⟨fun p => by rw [port]; exact ⟨rfl, rfl, rfl, List.prefix_rfl⟩, by rw [h], by rw [h]⟩

theorem State.QueuesGrow.trans {s t u : State} (h : s.QueuesGrow t) (k : t.QueuesGrow u) : s.QueuesGrow u := by
  refine ⟨fun p => ?_, k.selfReset.trans h.selfReset, k.wire.trans h.wire⟩
  obtain ⟨request, answer, mask, queue⟩ := h.port p
  obtain ⟨request', answer', mask', queue'⟩ := k.port p
  exact ⟨request'.trans request, answer'.trans answer, mask'.trans mask, queue.trans queue'⟩

section notices
variable (s : State)

theorem State.setPort_queuesGrow {p : Port} {v : PortState} (request : v.request = (s.port p).request)
    (answer : v.answer = (s.port p).answer) (mask : v.mask = (s.port p).mask) (queue : (s.port p).queue <+: v.queue) :
    s.QueuesGrow (s.setPort p v) := by
  refine ⟨fun q => ?_, State.setPort_selfReset .., State.setPort_wire ..⟩
  by_cases same : q = p
  · rw [same, State.setPort_port]
    exact ⟨request, answer, mask, queue⟩
  · rw [State.setPort_port_other _ _ _ _ same]
    exact ⟨rfl, rfl, rfl, List.prefix_rfl⟩

theorem State.offer_queuesGrow (p : Port) (n : Notice) : s.QueuesGrow (s.offer p n).1 := by
  rcases s.offer_cases p n with ⟨-, same⟩ | ⟨-, -, joins⟩ | ⟨-, -, drops⟩
  · rw [same]
    exact .of_ports rfl
  · rw [joins]
    exact s.setPort_queuesGrow rfl rfl rfl (List.prefix_append ..)
  · rw [drops]
    exact s.setPort_queuesGrow rfl rfl rfl List.prefix_rfl

theorem State.raiseNow_queuesGrow (f : FaultKind) (c : Nat) : s.QueuesGrow (s.raiseNow f c) := by
  rw [State.raiseNow_eq]
  dsimp only
  have offered : s.QueuesGrow ((s.withFaults (s.faults.take f c s.session.clock).1).offer .operator
      (raisedNotice f c s.session.clock)).1 :=
    State.QueuesGrow.trans (t := s.withFaults (s.faults.take f c s.session.clock).1) (.of_ports rfl)
      (State.offer_queuesGrow ..)
  split
  · split
    · exact offered.trans (.of_ports rfl)
    · exact offered
  · exact .of_ports rfl

theorem State.raiseNow_port_other (f : FaultKind) (c : Nat) {q : Port} (other : q ≠ .operator) :
    (s.raiseNow f c).port q = s.port q := by
  rw [State.raiseNow_eq]
  dsimp only
  have offered := (s.withFaults (s.faults.take f c s.session.clock).1).offer_port_other .operator
    (raisedNotice f c s.session.clock) other
  split
  · split
    · exact offered
    · exact offered
  · rfl

theorem State.raiseFault_queuesGrow (f : FaultKind) (c : Nat) : s.QueuesGrow (s.raiseFault f c) := by
  unfold State.raiseFault
  split
  · exact .of_ports rfl
  · exact s.raiseNow_queuesGrow f c

theorem State.raiseFault_port_other (f : FaultKind) (c : Nat) {q : Port} (other : q ≠ .operator) :
    (s.raiseFault f c).port q = s.port q := by
  unfold State.raiseFault
  split
  · rfl
  · exact s.raiseNow_port_other f c other

theorem State.raiseOverflows_queuesGrow (dropped : List Port) : s.QueuesGrow (s.raiseOverflows dropped) := by
  induction dropped generalizing s with
  | nil => exact .of_ports rfl
  | cons p rest ih => exact (s.raiseFault_queuesGrow _ _).trans (ih _)

theorem State.raiseOverflows_port_other (dropped : List Port) {q : Port} (other : q ≠ .operator) :
    (s.raiseOverflows dropped).port q = s.port q := by
  induction dropped generalizing s with
  | nil => rfl
  | cons p rest ih => exact (ih _).trans (s.raiseFault_port_other _ _ other)

/-! ### A notice offered to several ports (R173) -/

theorem State.offerAll_cons (p : Port) (rest : List Port) (n : Notice) : s.offerAll (p :: rest) n =
    (((s.offer p n).1.offerAll rest n).1,
      if (s.offer p n).2 then p :: ((s.offer p n).1.offerAll rest n).2 else ((s.offer p n).1.offerAll rest n).2) := rfl

theorem State.offerAll_queuesGrow (ports : List Port) (n : Notice) : s.QueuesGrow (s.offerAll ports n).1 := by
  induction ports generalizing s with
  | nil => exact .of_ports rfl
  | cons p rest ih => exact (s.offer_queuesGrow p n).trans (ih _)

theorem State.offerAll_port_other {ports : List Port} {q : Port} (other : q ∉ ports) (n : Notice) :
    (s.offerAll ports n).1.port q = s.port q := by
  induction ports generalizing s with
  | nil => rfl
  | cons p rest ih =>
    obtain ⟨differs, outside⟩ := not_or.mp (List.mem_cons.not.mp other)
    exact (ih _ outside).trans (s.offer_port_other p n differs)

/-- The notice joins the queue of each port that it is offered to, as that queue stood before (R174). -/
theorem State.offerAll_queue {ports : List Port} (once : ports.Nodup) (n : Notice) {p : Port} (here : p ∈ ports) :
    ((s.offerAll ports n).1.port p).queue = (s.port p).joined n := by
  induction ports generalizing s with
  | nil => cases here
  | cons q rest ih =>
    obtain ⟨outside, once⟩ := List.nodup_cons.mp once
    rw [State.offerAll_cons]
    rcases List.mem_cons.mp here with rfl | later
    · rw [State.offerAll_port_other _ outside, State.offer_port]
    · have differs : p ≠ q := by
        rintro rfl
        exact outside later
      rw [ih _ once later, State.offer_port_other _ _ _ differs]

/-- A notice for which every port has room, or whose kind it masks, is dropped nowhere. -/
theorem State.offerAll_dropped_of_room {ports : List Port} (once : ports.Nodup) (n : Notice)
    (room : ∀ p ∈ ports, n.kind ∈ (s.port p).mask → (s.port p).queue.length < 16) : (s.offerAll ports n).2 = [] := by
  induction ports generalizing s with
  | nil => rfl
  | cons q rest ih =>
    obtain ⟨outside, once⟩ := List.nodup_cons.mp once
    have kept : s.offer q n = ((s.offer q n).1, false) :=
      Prod.ext rfl (s.offer_dropped_of_room q n (room q (List.mem_cons_self ..)))
    have later : ((s.offer q n).1.offerAll rest n).2 = [] := ih _ once fun p here => by
      have differs : p ≠ q := by
        rintro rfl
        exact outside here
      rw [State.offer_port_other _ _ _ differs]
      exact room p (List.mem_cons_of_mem _ here)
    rw [State.offerAll_cons, kept]
    exact later

/-! ### A notice queued (R173, R174) -/

theorem NoticeKind.ports_nodup (k : NoticeKind) : k.ports.Nodup := by cases k <;> decide

theorem State.notify_eq (k : NoticeKind) (a b c d : Nat) : s.notify k a b c d =
    (s.offerAll k.ports ⟨k, s.session.clock, [a, b, c, d]⟩).1.raiseOverflows
      (s.offerAll k.ports ⟨k, s.session.clock, [a, b, c, d]⟩).2 := rfl

/-- A notice of one port's kind that finds its queue full: the drop, and the overflow that it raises. -/
theorem State.notify_of_full {k : NoticeKind} {p : Port} (one : k.ports = [p]) (unmasked : k ∈ (s.port p).mask)
    (full : 16 ≤ (s.port p).queue.length) (a b c d : Nat) : s.notify k a b c d =
      (s.setPort p { s.port p with lost := true }).raiseFault .noticeOverflow (portCode p) := by
  rw [State.notify_eq, one, State.offerAll_cons, s.offer_of_full p _ unmasked full]
  rfl

theorem State.notify_queuesGrow (k : NoticeKind) (a b c d : Nat) : s.QueuesGrow (s.notify k a b c d) :=
  (s.offerAll_queuesGrow ..).trans (State.raiseOverflows_queuesGrow ..)

/-- A port that a kind does not go to stands, but for the Operator port, to which an overflow may be notified. -/
theorem State.notify_port_other {k : NoticeKind} {q : Port} (outside : q ∉ k.ports) (other : q ≠ .operator)
    (a b c d : Nat) : (s.notify k a b c d).port q = s.port q :=
  (State.raiseOverflows_port_other _ _ other).trans (s.offerAll_port_other outside _)

theorem State.joined_prefix_notify {k : NoticeKind} {p : Port} (here : p ∈ k.ports) (a b c d : Nat) :
    (s.port p).joined ⟨k, s.session.clock, [a, b, c, d]⟩ <+: ((s.notify k a b c d).port p).queue := by
  rw [← s.offerAll_queue k.ports_nodup _ here, State.notify_eq]
  obtain ⟨-, -, -, queue⟩ := (State.raiseOverflows_queuesGrow (s.offerAll k.ports _).1 (s.offerAll k.ports _).2).port p
  exact queue

/-- With room in every port of its kind that does not mask it, a notice is offered and nothing is raised. -/
theorem State.notify_of_room {k : NoticeKind}
    (room : ∀ p ∈ k.ports, k ∈ (s.port p).mask → (s.port p).queue.length < 16) (a b c d : Nat) :
    s.notify k a b c d = (s.offerAll k.ports ⟨k, s.session.clock, [a, b, c, d]⟩).1 := by
  rw [State.notify_eq, s.offerAll_dropped_of_room k.ports_nodup _ room]
  rfl

end notices

end Sys2Proof.Machine

namespace Sys2Proof.Proofs
open Sys2Proof Sys2Proof.Machine

/-- Settles O14: an offer by its three cases, and a notice by what its offers and the overflows leave of each port. -/
theorem noticesJoinUnlessMaskedOrFull : Obligations.NoticesJoinUnlessMaskedOrFull := by
  refine ⟨fun s p n => ⟨s.offer_of_masked p n, s.offer_of_room p n, s.offer_of_full p n⟩,
    fun s k p a b c d one unmasked full => s.notify_of_full one unmasked full a b c d, ?_⟩
  rintro s _ k a b c d rfl
  have grown := s.notify_queuesGrow k a b c d
  refine ⟨s.notify_reports k a b c d, fun p => ?_, grown.selfReset, grown.wire, fun room => ?_⟩
  · obtain ⟨request, answer, mask, queue⟩ := grown.port p
    exact ⟨request, answer, mask, queue, fun here => s.joined_prefix_notify here a b c d,
      fun outside other => s.notify_port_other outside other a b c d⟩
  · rw [s.notify_of_room room]
    exact ⟨State.offerAll_faults .., fun p here => s.offerAll_queue k.ports_nodup _ here⟩

end Sys2Proof.Proofs
end

section
/-! SUPPORT. Scope, the ports' own commands (R175 to R177): READ NOTICE and SET NOTICE MASK as one change of their port under the answer,
and PORT RESET by the port that it names. -/

namespace Sys2Proof.Machine

/-! ### A command that changes its own port -/

theorem State.answered_port (s : State) (p : Port) (code : Byte) (r : Result) (fields : List Byte) :
    (s.answered p code r fields).port p = { s.port p with request := none, answer := some ⟨code, r, fields⟩ } := by
  rw [State.answered, State.setPort_port]

/-- A command whose body leaves `v` in its own port: `v` with the answer in place of the request. -/
theorem exec_of_ownPort {α : Type} {s : State} {p : Port} {code : Byte} {params : List Byte} {parsed : Option α} {a : α}
    {body : α → State → Reply} {r : Result} {fields : List Byte} {v : PortState} (ready : s.canTake p)
    (short : params.length ≤ 250) (accepted : acceptedOn code p = true) (fits : paramsFit code params = true)
    (hp : parsed = some a) (hb : body a (s.taken p code params) = ⟨(s.taken p code params).setPort p v, r, fields⟩) :
    (.next (s.serve p code params (withParams parsed body)) : Host.Outcome State Fault Refusal) =
      .next ((s.answered p code r fields).setPort p { v with request := none, answer := some ⟨code, r, fields⟩ }) := by
  rw [hp, State.serve_done s p code params _ ready short accepted fits,
    show withParams (some a) body (s.taken p code params) = _ from hb]
  cases p <;> rfl

/-! ### READ NOTICE (R175) -/

theorem readNotice_of_empty {s : State} {p : Port} (empty : (s.port p).queue = []) :
    readNotice p () s = ⟨s, .empty, be 1 0⟩ := by
  simp only [readNotice, empty]

theorem readNotice_of_cons {s : State} {p : Port} {n : Notice} {rest : List Notice} (queue : (s.port p).queue = n :: rest) :
    readNotice p () s =
      ⟨s.setPort p { s.port p with queue := rest, lost := if rest.isEmpty then false else (s.port p).lost }, .ok,
        n.bytes ++ be 1 rest.length ++ flagByte (s.port p).lost⟩ := by
  simp only [readNotice, queue]

/-! ### SET NOTICE MASK (R176) -/

theorem kindList_eq (kinds : List NoticeKind) :
    kindList kinds = be 1 (kinds.map fun k => BitVec.ofNat 8 k.code).length ++ kinds.map fun k => BitVec.ofNat 8 k.code := by
  rw [List.length_map]
  exact congrArg (be 1 kinds.length ++ ·) (List.flatMap_pure_eq_map ..)

/-- A list of kinds that go to the port is read back. -/
theorem maskParams?_kinds {p : Port} {kinds : List NoticeKind} (few : kinds.length ≤ 19)
    (own : ∀ k ∈ kinds, k ∈ kindsOf p) : maskParams? p (kindList kinds) = some kinds := by
  have read : byteList? (kindList kinds) = some (kinds.map fun k => BitVec.ofNat 8 k.code) := by
    rw [kindList_eq, List.length_map]
    exact byteList?_map _ kinds (by omega)
  have count : (kinds.map fun k => (BitVec.ofNat 8 k.code : Byte)).length ≤ 19 := by rwa [List.length_map]
  rw [maskParams?, read]
  dsimp only
  rw [if_pos count]
  refine readAll?_map _ _ kinds fun k here => ?_
  rw [noticeKind?_byte, Option.filter_some, if_pos (by simpa using own k here)]

/-- One entry that is not read spoils the list. -/
theorem readAll?_none {α : Type} {f : Byte → Option α} {bs : List Byte} (h : ∃ b ∈ bs, f b = none) : readAll? f bs = none := by
  obtain ⟨b, here, unread⟩ := h
  induction bs with
  | nil => cases here
  | cons c rest ih =>
    unfold readAll?
    rcases List.mem_cons.mp here with rfl | later
    · rw [unread]
    · rw [ih later]
      cases f c <;> rfl

/-- A code that is no kind of the port's is not read (R176). -/
theorem maskParams?_none {p : Port} {codes : List Byte} (few : codes.length ≤ 19)
    (foreign : ∃ b ∈ codes, ∀ k ∈ kindsOf p, b.toNat ≠ k.code) : maskParams? p (be 1 codes.length ++ codes) = none := by
  have read : byteList? (be 1 codes.length ++ codes) = some codes := by
    simpa using byteList?_map id codes (by omega)
  rw [maskParams?, read]
  dsimp only
  rw [if_pos few]
  obtain ⟨b, here, foreign⟩ := foreign
  refine readAll?_none ⟨b, here, Option.filter_eq_none_iff.mpr fun k named own => ?_⟩
  have code : k.code = b.toNat := by
    have found := List.find?_some named
    exact eq_of_beq found
  exact foreign k (by simpa using own) code.symm

/-! ### PORT RESET (R177) -/

/-- PORT RESET of the port that its one byte names. -/
theorem exec_portReset {s : State} (ready : s.canTake .operator) (q : Port) :
    exec (.portReset .operator [BitVec.ofNat 8 (portCode q)]) s = .next
      (((s.taken .operator 0x67#8 [BitVec.ofNat 8 (portCode q)]).takePortReset q).placeAnswer .operator 0x67#8 .ok
        (be 1 (s.port q).queue.length ++
          flagByte ((s.taken .operator 0x67#8 [BitVec.ofNat 8 (portCode q)]).port q).answerReady)) := by
  have read : oneByte? port? [BitVec.ofNat 8 (portCode q)] = some q := port?_byte q
  show Host.Outcome.next (s.serve .operator 0x67#8 _ (withParams (oneByte? port? _) portReset)) = _
  rw [read, State.serve_done s .operator 0x67#8 _ _ ready (by simp) rfl rfl]
  cases q <;> rfl

end Sys2Proof.Machine

namespace Sys2Proof.Proofs
open Sys2Proof Sys2Proof.Machine

/-- Settles O17: READ NOTICE by what its queue holds, under its answer (`exec_of_plain`, `exec_of_ownPort`). -/
theorem readNoticeTakesTheOldest : Obligations.ReadNoticeTakesTheOldest := by
  refine fun s p ready => ⟨fun empty => ?_, fun n rest queue => ?_⟩
  · exact exec_of_plain ready (by simp) (by cases p <;> rfl) rfl (parsed := noParams? []) rfl
      (readNotice_of_empty (by rwa [State.taken_port]))
  · rw [State.answered_port]
    refine (exec_of_ownPort ready (by simp) (by cases p <;> rfl) rfl (parsed := noParams? []) rfl
      (readNotice_of_cons (n := n) (rest := rest) (by rwa [State.taken_port]))).trans ?_
    rw [State.taken_port]
    rfl

/-- Settles O18: the list is read back or spoiled by one code (`maskParams?_kinds`, `maskParams?_none`), and the mask is the port's own
change. -/
theorem setNoticeMaskSetsTheMask : Obligations.SetNoticeMaskSetsTheMask := by
  refine ⟨fun s p kinds ready few own => ?_, fun s p codes ready few foreign => ?_⟩
  · have count : (kinds.map fun k => (BitVec.ofNat 8 k.code : Byte)).length ≤ 19 := by rwa [List.length_map]
    have fits : paramsFit 0x03#8 (kindList kinds) = true := by
      rw [kindList_eq]
      exact listFits_bytes count (by omega)
    have short : (kindList kinds).length ≤ 250 := by
      rw [kindList_eq, List.length_append, be_one, List.length_singleton]
      omega
    rw [State.answered_port]
    refine (exec_of_ownPort ready short (by cases p <;> rfl) fits (maskParams?_kinds few own) rfl).trans ?_
    rw [State.taken_port]
    rfl
  · refine exec_of_malformed ready ?_ (by cases p <;> rfl) (maskParams?_none few foreign)
    rw [List.length_append, be_one, List.length_singleton]
    omega

/-- Settles O19: the reset that each port code names (`exec_portReset`), under the answer. -/
theorem portResetResetsOnePort : Obligations.PortResetResetsOnePort :=
  fun _ ready => ⟨exec_portReset ready .booth, exec_portReset ready .hire, exec_portReset ready .operator⟩

end Sys2Proof.Proofs
end

section
/-! SUPPORT. Scope, the machine right after POWER_ON (R165, R186): its tables row by row, and the laws of the device there, which hold
because the tables of interpreters, receivers and hires are empty and every desk is VACANT. -/

namespace Sys2Proof.Machine

/-! ### The tables at reset -/

theorem reset_desk (d : DeskId) : State.reset.desk d = .reset := Table.get_replicate ..
theorem reset_request (b : Fin 24) : State.reset.request b = none := Table.get_replicate ..
theorem reset_program (p : Prog) : State.reset.program p = .default p := Table.get_ofFn ..
theorem reset_slot (k : Fin 512) : State.reset.registry.slots.get k = none := Table.get_replicate ..
theorem reset_port (p : Port) : State.reset.port p = .reset p := by cases p <;> rfl

/-! ### Ranges, words and requests at reset -/

theorem reset_portsOk : State.reset.portsOk :=
  (State.portsOk_iff _).mpr fun p => by
    rw [reset_port]
    exact ⟨Nat.zero_le _, fun _ own => own⟩

theorem reset_valuesInRange : State.reset.valuesInRange := by
  refine ⟨fun c row => ?_, by decide, by decide, fun t row => ?_, by decide, by decide, by decide⟩
  · rw [List.eq_of_mem_replicate row]
    decide
  · rw [List.eq_of_mem_replicate row]
    decide

theorem reset_floorFixed : State.reset.floorFixed := by
  refine ⟨?_, nofun⟩
  rw [reset_program]
  decide

theorem reset_wordsAgree : State.reset.wordsAgree := fun _ row => List.eq_of_mem_replicate row

theorem reset_waitingPassed : State.reset.waitingPassed := fun p r waits => by
  rw [reset_port] at waits
  cases waits

/-! ### The laws that tie the blocks together, at reset -/

theorem reset_airConsistent : State.reset.airConsistent where
  desks d _ _ live := by rw [reset_desk] at live; cases live
  programs p _ live := by rw [reset_program] at live; cases live
  single d _ _ live := by rw [reset_desk] at live; cases live
  session d live := by rw [reset_desk] at live; cases live
  startup _ := rfl
  requests b _ asked := by rw [reset_request] at asked; cases asked
  floor := reset_floorFixed
  shadow := nofun

theorem reset_carriedFits : State.reset.carriedFits := nofun

theorem reset_rackMapAgrees : State.reset.rackMapAgrees := by
  refine ⟨.nil, fun k n => ⟨fun seated => ?_, nofun⟩⟩
  rw [reset_slot] at seated
  cases seated

theorem reset_demandCounted : State.reset.demandCounted :=
  ⟨.nil, Nat.zero_le _, by decide, nofun, nofun⟩

theorem reset_seatsAgree : State.reset.seatsAgree where
  range := nofun
  unique := .nil
  present d _ seated := by rw [reset_desk] at seated; cases seated
  linked := nofun
  startup _ d := by rw [reset_desk]; rfl

theorem reset_linesAgree : State.reset.linesAgree where
  order := .nil
  fits := nofun
  onHire := nofun
  out := nofun

end Sys2Proof.Machine

namespace Sys2Proof.Proofs
open Sys2Proof Sys2Proof.Machine

/-- Settles O3: the tables at reset row by row, and each law there by its own lemma. -/
theorem resetStateAndItsLaws : Obligations.ResetStateAndItsLaws :=
  ⟨rfl, rfl, reset_port, rfl, rfl, by decide, reset_desk, reset_request, rfl, rfl, rfl, rfl, rfl, reset_portsOk, by decide,
    reset_valuesInRange, reset_floorFixed, reset_wordsAgree, reset_waitingPassed, reset_airConsistent, reset_carriedFits,
    reset_rackMapAgrees, reset_demandCounted, reset_seatsAgree, reset_linesAgree, Nat.zero_le _⟩

end Sys2Proof.Proofs
end

section
/-! SUPPORT. Scope, ports that take no transaction (R188), and Fault Capture (R182 to R184, R186): a raise by its class and the flags
that stand, what it leaves of the Operator port, and CLEAR FAULTS as one change of the capture under its answer. -/

namespace Sys2Proof.Machine

/-! ### Ports while RESET_N is asserted or main power is off (R188) -/

section off
variable {s : State} (off : s.operating = false)
include off

theorem exec_requestTransaction_off (p : Port) (frame : List Byte) : exec (.requestTransaction p frame) s = .next s := by
  show execRequestTransaction p frame s = _
  rw [execRequestTransaction, off]
  rfl

theorem exec_fetchAnswer_off (p : Port) : exec (.fetchAnswer p) s = .next s := by
  show execFetchAnswer p s = _
  rw [execFetchAnswer, off]
  rfl

theorem exec_statusOnly_off (p : Port) : exec (.statusOnly p) s = .next s := by
  show execStatusOnly p s = _
  rw [execStatusOnly, off]
  rfl

theorem exec_undefinedTransactionByte_off (p : Port) (b : Byte) : exec (.undefinedTransactionByte p b) s = .next s := by
  show execUndefinedTransactionByte p b s = _
  rw [execUndefinedTransactionByte, off]
  rfl

/-- No request is handled, whether or not a frame could carry its parameters. -/
theorem exec_request_off {c : Instr} {p : Port} {code : Byte} {params : List Byte}
    (request : requestOf c = some (p, code, params)) : exec c s = .next s := by
  cases c
  case unknownCommand q k l =>
    show execUnknownCommand q k l s = _
    rw [execUnknownCommand, State.serve_off _ _ _ _ _ off, ite_self]
  -- An event that is no request has no port to name.
  all_goals cases request
  all_goals exact congrArg Host.Outcome.next (State.serve_off _ _ _ _ _ off)

end off

/-! ### A raise by its class and the flags that stand (R182) -/

section take
variable {c : FaultCapture} {f : FaultKind} (n : Nat) (time : HallTime)

theorem FaultCapture.take_first_alert (alert : f.severe = false) (alertClear : c.alertSeen = false)
    (severeClear : c.severeSeen = false) (multipleClear : c.multipleSevere = false) :
    c.take f n time = ({ c with record := some ⟨f, n, time⟩, alertSeen := true }, true) := by
  simp [FaultCapture.take, alert, alertClear, severeClear, multipleClear]

theorem FaultCapture.take_later_alert (alert : f.severe = false)
    (seen : c.alertSeen = true ∨ c.severeSeen = true ∨ c.multipleSevere = true) :
    c.take f n time = ({ c with alertSeen := true }, false) := by
  have flag : (c.alertSeen || c.severeSeen || c.multipleSevere) = true := by simpa [or_assoc] using seen
  simp only [FaultCapture.take, alert, flag, Bool.false_eq_true, if_false, if_true]

theorem FaultCapture.take_first_severe (severe : f.severe = true) (severeClear : c.severeSeen = false) :
    c.take f n time = ({ c with record := some ⟨f, n, time⟩, severeSeen := true }, true) := by
  simp [FaultCapture.take, severe, severeClear]

theorem FaultCapture.take_later_severe (severe : f.severe = true) (severeSeen : c.severeSeen = true) :
    c.take f n time = ({ c with multipleSevere := true }, false) := by
  simp [FaultCapture.take, severe, severeSeen]

end take

/-! ### A raise into the capture and the Operator port (R183, R186) -/

section raise
variable {s : State} {f : FaultKind} {n : Nat}

/-- A raise during start-up is held (R186). -/
theorem State.raiseFault_of_starting (starting : s.startup ≠ .done) :
    s.raiseFault f n = { s with faults := { s.faults with held := s.faults.held ++ [(f, n)] } } :=
  if_pos (decide_eq_true starting)

theorem State.raiseNow_of_unlatched (unlatched : (s.faults.take f n s.session.clock).2 = false) :
    s.raiseNow f n = s.withFaults (s.faults.take f n s.session.clock).1 := by
  rw [State.raiseNow_eq]
  exact if_neg (by simp [unlatched])

/-- A raise whose notice the Operator port has room for, or masks, ends with its own take of the capture (R174). -/
theorem State.raiseNow_faults_of_room
    (room : .faultRaised ∉ (s.port .operator).mask ∨ (s.port .operator).queue.length < 16) :
    (s.raiseNow f n).faults = (s.faults.take f n s.session.clock).1 := by
  have kept : ((s.withFaults (s.faults.take f n s.session.clock).1).offer .operator
      (raisedNotice f n s.session.clock)).2 = false :=
    State.offer_dropped_of_room _ _ _ fun unmasked => room.resolve_left (not_not_intro unmasked)
  rw [State.raiseNow_eq]
  dsimp only
  rw [kept]
  split
  · exact State.offer_faults ..
  · rfl

/-- A raise that latches details queues its notice to the Operator port, as that port's queue stood (R183). -/
theorem State.raiseNow_queue_of_latched (latched : (s.faults.take f n s.session.clock).2 = true) :
    ((s.raiseNow f n).port .operator).queue = (s.port .operator).joined (raisedNotice f n s.session.clock) := by
  have offered : (((s.withFaults (s.faults.take f n s.session.clock).1).offer .operator
      (raisedNotice f n s.session.clock)).1.port .operator).queue =
        (s.port .operator).joined (raisedNotice f n s.session.clock) := by
    rw [State.offer_port]
    rfl
  rw [State.raiseNow_eq]
  dsimp only
  rw [if_pos latched]
  split
  · exact offered
  · exact offered

end raise

/-! ### CLEAR FAULTS (R184) -/

theorem FaultCapture.clear_eq {c d : FaultCapture} {l : List FlagName} (held : d.held = c.held)
    (alert : d.alertSeen = (c.alertSeen && .alertSeen ∉ l)) (severe : d.severeSeen = (c.severeSeen && .severeSeen ∉ l))
    (multiple : d.multipleSevere = (c.multipleSevere && .multipleSevere ∉ l))
    (record : d.record = if d.alertSeen || d.severeSeen || d.multipleSevere then c.record else none) : c.clear l = d := by
  simp only [FaultCapture.clear, ← alert, ← severe, ← multiple, ← record, ← held]

theorem flagList_eq (l : List FlagName) :
    flagList l = be 1 (l.map fun f => BitVec.ofNat 8 f.code).length ++ l.map fun f => BitVec.ofNat 8 f.code := by
  rw [List.length_map]
  exact congrArg (be 1 l.length ++ ·) (List.flatMap_pure_eq_map ..)

/-- A list of few enough codes is read code by code. -/
theorem clearParams?_codes {codes : List Byte} (few : codes.length ≤ 3) :
    clearParams? (be 1 codes.length ++ codes) = readAll? flagName? codes := by
  have read : byteList? (be 1 codes.length ++ codes) = some codes := by
    simpa using byteList?_map id codes (by omega)
  rw [clearParams?, read]
  exact if_pos few

theorem clearParams?_flags {l : List FlagName} (few : l.length ≤ 3) : clearParams? (flagList l) = some l := by
  rw [flagList_eq, clearParams?_codes (by rwa [List.length_map])]
  exact readAll?_map _ _ l fun f _ => flagName?_byte f

theorem flagName?_none {b : Byte} (h : b.toNat = 0 ∨ 3 < b.toNat) : flagName? b = none := by
  unfold flagName?
  split
  case h_4 => rfl
  all_goals omega

/-- One code outside 1 to 3 spoils the list. -/
theorem clearParams?_none {codes : List Byte} (few : codes.length ≤ 3)
    (foreign : ∃ b ∈ codes, b.toNat = 0 ∨ 3 < b.toNat) : clearParams? (be 1 codes.length ++ codes) = none := by
  obtain ⟨b, here, outside⟩ := foreign
  rw [clearParams?_codes few]
  exact readAll?_none ⟨b, here, flagName?_none outside⟩

/-- CLEAR FAULTS on its own port: the capture cleared, under the answer that tells it. -/
theorem exec_clearFaults {s : State} {l : List FlagName} (ready : s.canTake .operator) (few : l.length ≤ 3) :
    exec (.clearFaults .operator (flagList l)) s = .next ((s.answered .operator 0x63#8 .ok
      (flagByte (s.faults.clear l).alertSeen ++ flagByte (s.faults.clear l).severeSeen
        ++ flagByte (s.faults.clear l).multipleSevere ++ (s.faults.clear l).recordBytes)).withFaults (s.faults.clear l)) := by
  have count : (l.map fun f => (BitVec.ofNat 8 f.code : Byte)).length ≤ 3 := by rwa [List.length_map]
  have fits : paramsFit 0x63#8 (flagList l) = true := by
    rw [flagList_eq]
    exact listFits_bytes count (by omega)
  have short : (flagList l).length ≤ 250 := by
    rw [flagList_eq, List.length_append, be_one, List.length_singleton]
    omega
  exact exec_of_apart ready short rfl fits (clearParams?_flags few) (State.withFaults_placeAnswer _) rfl

end Sys2Proof.Machine

namespace Sys2Proof.Proofs
open Sys2Proof Sys2Proof.Machine

/-- Settles O13: each transaction and each command's row on ports that do not operate. -/
theorem noTransactionWhileResetOrOff : Obligations.NoTransactionWhileResetOrOff := by
  intro s p cause
  have off : s.operating = false := by
    rcases cause with unpowered | asserted
    · simp [State.operating, unpowered]
    · simp [State.operating, asserted]
  exact ⟨exec_requestTransaction_off off p, exec_fetchAnswer_off off p, exec_statusOnly_off off p,
    exec_undefinedTransactionByte_off off p, fun code params => exec_request_off off (requestOf_commandOf p code params)⟩

/-- Settles O15: the table by its four rows, and the two orders of an alert and a severe fault by two rows each. -/
theorem aFaultRaiseFollowsTheTable : Obligations.AFaultRaiseFollowsTheTable := by
  refine ⟨fun c f n time => ⟨FaultCapture.take_first_alert n time, FaultCapture.take_later_alert n time,
    FaultCapture.take_first_severe n time, FaultCapture.take_later_severe n time⟩, ?_, ?_⟩
  · refine fun c f g n m time alert severe alertClear severeClear multipleClear => ⟨?_, ?_⟩
    · rintro _ rfl
      rw [FaultCapture.take_first_alert n time alert alertClear severeClear multipleClear]
      exact ⟨rfl, FaultCapture.take_first_severe m time severe severeClear⟩
    · rintro _ rfl
      rw [FaultCapture.take_first_severe m time severe severeClear]
      exact ⟨rfl, FaultCapture.take_later_alert n time alert (.inr (.inl rfl))⟩
  · intro s f n done room
    rw [State.raiseFault_of_done done]
    exact State.raiseNow_faults_of_room room

/-- Settles O16: held during start-up, and after it by whether the raise latches. -/
theorem aRaiseThatLatchesIsNotified : Obligations.ARaiseThatLatchesIsNotified := by
  refine fun s f n => ⟨State.raiseFault_of_starting, fun done unlatched => ?_, fun done latched => ⟨?_, ?_, ?_⟩⟩
  · rw [State.raiseFault_of_done done]
    exact State.raiseNow_of_unlatched unlatched
  · rw [State.raiseFault_of_done done]
    exact State.raiseNow_queue_of_latched latched
  · exact s.raiseFault_port_other f n (q := .booth) (by decide)
  · exact s.raiseFault_port_other f n (q := .hire) (by decide)

/-- Settles O20: the capture cleared is the one that the flags listed leave (`FaultCapture.clear_eq`), and one code outside 1 to 3 leaves
the list unread. -/
theorem clearFaultsClearsTheFlagsListed : Obligations.ClearFaultsClearsTheFlagsListed := by
  refine ⟨fun s l ready few c held alert severe multiple record => ?_,
    fun s p params ready other short => exec_of_wrongPort ready short rfl other,
    fun s codes ready few foreign => exec_of_malformed ready ?_ rfl (clearParams?_none few foreign)⟩
  · have cleared : s.faults.clear l = c := FaultCapture.clear_eq held alert severe multiple record
    refine ⟨_, exec_clearFaults ready few, ?_⟩
    rw [cleared]
    exact ⟨rfl, rfl⟩
  · rw [List.length_append, be_one, List.length_singleton]
    omega

end Sys2Proof.Proofs
end
